-- ==== Sys2Proof/Word.lean ====
section
/-! DEFINITION. The word types of the PTU tracking core (spec/00_scope.md R8, R9, R10). -/

namespace Sys2Proof

/-- One byte of a stream or a frame (R9: bit 0 is the least significant bit). -/
abbrev Byte := BitVec 8

/-- A 16-bit word: an operation word (R82), an `int16` coordinate or a `uint16` speed (R10). -/
abbrev Word16 := BitVec 16

/-- A 32-bit payload word (R82). -/
abbrev Word32 := BitVec 32

/-- A binary32 value by its bit pattern: sign, 8 exponent bits, 23 fraction bits (R8). -/
abbrev F32 := BitVec 32

/-- The bytes of one whole motor frame, index 0 first on the wire (R53, R56). -/
abbrev Frame := List Byte

end Sys2Proof
end

