-- ==== Sys2Proof/Machine/Params.lean ====
section
/-! DEFINITION. The named constants the spec fixes (spec/00_scope.md R6, spec/30_encoding.md R71, R74 to R77). Their values
are the source's and unaudited (93_implementation_defined.md U1): a later audit changes a value here
and no rule elsewhere (UNVERIFIED, unsafe, log entry 22). -/

namespace Sys2Proof.Config

/-- FRAME_SIZE: the coordinate clamp bound. -/
def frameSize : Nat := 240
/-- CENTER: FRAME_SIZE/2, the optical center. -/
def center : Int := 120
/-- LINE_CAP: the line buffer's capacity "including terminator"; it is the size of LB and the bound of LI (R24, LineRegs). -/
abbrev lineCap : Nat := 32
/-- LINE_MAX: the most bytes accumulated before a silent reset, LINE_CAP - 1. -/
def lineMax : Nat := lineCap - 1
/-- LOCK_THRESHOLD: the dwell ticks that give Locked. -/
def lockThreshold : Nat := 10
/-- SCALE: 0.01 in binary32, PID units to degrees. -/
def scale : F32 := 0x3C23D70A#32
/-- STOP_THRESHOLD: 0.1 in binary32, degrees below which a Move encodes as Stop. -/
def stopThreshold : F32 := 0x3DCCCCCD#32
/-- PULSES_PER_REV: 3200.0 in binary32. -/
def pulsesPerRev : F32 := 0x45480000#32
/-- DEG_PER_REV: 360.0 in binary32. -/
def degPerRev : F32 := 0x43B40000#32
/-- The largest pulse magnitude ENC_MOVE sends (R190): 2^31 - 1. -/
def pulseMax : Nat := 2 ^ 31 - 1
/-- ID_V: the motor id of the vertical axis. -/
def idV : Byte := 0x01#8
/-- ID_H: the motor id of the horizontal axis. -/
def idH : Byte := 0x02#8
/-- SPEED_DEFAULT: the speed field of a tick's Move frame (1200 RPM). -/
def speedDefault : Word16 := 0x04B0#16
/-- ACCEL_DEFAULT: the acceleration code of a tick's Move frame. -/
def accelDefault : Byte := 0x05#8
/-- CHECKSUM: the last byte of every frame, "a fixed constant, not computed". -/
def checksum : Byte := 0x6B#8
/-- TICK_HZ: the control tick's cadence; timing only, no rule depends on it (R252). -/
def tickHz : Nat := 50
/-- TLM_PERIOD: telemetry lines at most once per this many ticks (R205). -/
def tlmPeriod : Nat := 10
/-- LOST_PERIOD: the lost event comes on the first loss tick and every this many ticks after it (R159). -/
def lostPeriod : Nat := 50

/-- Function code of a MOVE frame (R74). -/
def codeMove : Byte := 0xFD#8
/-- Function code of a STOP frame (R75). -/
def codeStop : Byte := 0xFE#8
/-- Sub-code of a STOP frame (R75). -/
def subStop : Byte := 0x98#8
/-- Function code of an EN frame (R76). -/
def codeEnable : Byte := 0xF3#8
/-- Sub-code of an EN frame (R76). -/
def subEnable : Byte := 0xAB#8
/-- The mode byte of a MOVE frame, always 0x00 (R77). -/
def modeByte : Byte := 0x00#8
/-- The sync byte of every frame, always 0x00 (R77). -/
def syncByte : Byte := 0x00#8

/-- TERM_LF (R71). -/
def chLf : Byte := 0x0A#8
/-- TERM_CR (R71). -/
def chCr : Byte := 0x0D#8
/-- COMMA (R71). -/
def chComma : Byte := 0x2C#8

end Sys2Proof.Config
end

