-- ==== Sys2Proof/Syntax.lean ====
section
/-! DEFINITION. The names the spec gives (axes, motors, modes, flags, agents), the feedback record, and the ONE
inductive of operations: a constructor for every row of spec/opcode_table.json. -/

namespace Sys2Proof

/-- The two stepping agents (R20, R226): the ingestion and the control domain. -/
inductive Agent where
  | ing
  | ctl
  deriving DecidableEq, Repr

/-- The two axes, each with a PID bank of its own (R5, R26). -/
inductive Axis where
  | horizontal
  | vertical
  deriving DecidableEq, Repr

/-- The two motors (R188): vertical is id 0x01, horizontal is id 0x02. -/
inductive Motor where
  | vertical
  | horizontal
  deriving DecidableEq, Repr

/-- The dir byte's two values (R74): 0x00 is CCW and 0x01 is CW. -/
inductive Rotation where
  | ccw
  | cw
  deriving DecidableEq, Repr, Inhabited

/-- TrackingMode (R29), "exactly one value live at a time". -/
inductive TrackingMode where
  | idle
  | tracking
  | locked
  deriving DecidableEq, Repr

/-- The collaborator's two output flags (R203). -/
inductive HostFlag where
  | feedbackEn
  | debugEn
  deriving DecidableEq, Repr

/-- Format FB (R81): the tuple handed to the telemetry collaborator; it has no bit layout. -/
structure FeedbackRecord where
  x : Int
  y : Int
  dx : Int
  dy : Int
  outH : F32
  outV : F32
  mode : TrackingMode
  deriving DecidableEq, Repr

/-- The integer fields of a telemetry line (R80, R81). -/
inductive TlmInt where
  | tx
  | ty
  | dx
  | dy
  deriving DecidableEq, Repr

/-- The real fields of a telemetry line (R80, R81). -/
inductive TlmReal where
  | pidH
  | pidV
  deriving DecidableEq, Repr

/-- The six number fields of a telemetry line (R80) as the bytes between the commas: the text form of
a number is in no source (91_not_in_source.md N9), so a line carries text and not numbers. -/
structure TelemetryText where
  tx : List Byte
  ty : List Byte
  dx : List Byte
  dy : List Byte
  pidH : List Byte
  pidV : List Byte
  deriving DecidableEq, Repr, Inhabited

/-- The operations of the block: one constructor per row of spec/opcode_table.json. The first seventeen are
the operation words of R82; then the three motor frames (R74 to R76), the five uplink byte
classes (R71) and the telemetry line (R80). -/
inductive Instr where
  | decByte (b : Byte)
  | mbPublish (x y : Word16) (valid : Bool)
  | mbTake
  | pidCalc (a : Axis) (error : F32)
  | pidReset (a : Axis)
  | pidSetParams (a : Axis) (kp ki kd : F32)
  | pidGetParams (a : Axis)
  | smTick
  | smEnable
  | smDisable
  | encMove (m : Motor) (angle : F32) (speed : Word16) (accel : Byte)
  | encStop (m : Motor)
  | encEnable (m : Motor) (enable : Bool)
  | hostStopAll
  | hostMove (m : Motor) (angle : F32) (speed : Word16) (accel : Byte)
  | hostMotorEnable (m : Motor) (enable : Bool)
  | hostSetFlag (f : HostFlag) (value : Bool)
  | frameMove (m : Motor) (dir : Rotation) (speed : Word16) (accel : Byte) (pulses : Word32)
  | frameStop (m : Motor)
  | frameEnable (m : Motor) (enable : Bool)
  | ulTermLf
  | ulTermCr
  | ulDigit (d : BitVec 4)
  | ulComma
  | ulOther (b : Byte)
  | tlmData (text : TelemetryText) (mode : TrackingMode)
  deriving DecidableEq, Repr

/-- What one offer at a port of the block spells, before it is decoded: an uplink byte (format UL), an
operation word with its payload words (format OP), the bytes CTL hands to Send (R13), or the bytes of a
telemetry line (R70). No port takes a motor frame in: the block never receives one (R79). -/
inductive Words where
  | uplink (b : Byte)
  | op (w : Word16) (payload : List Word32)
  | send (bytes : List Byte)
  | telemetry (bytes : List Byte)
  deriving DecidableEq, Repr

end Sys2Proof
end

