-- ==== Sys2Proof/WellFormed.lean ====
section
/-! DEFINITION. Which terms of Instr stand for an operation the spec's formats can spell. The types of Instr's fields
already bound every operand of an operation word; what is left to check is the uplink classes (R71)
and the texts of a telemetry line (R80). -/

namespace Sys2Proof

/-- A byte of class OTHER (R71): none of the two terminators, the ten digits and the comma. -/
def isOtherByte (b : Byte) : Bool :=
  b != 0x0A#8 && b != 0x0D#8 && b != 0x2C#8 && !(decide (0x30 ≤ b.toNat) && decide (b.toNat ≤ 0x39))

/-- A byte that may stand inside a field of a telemetry line: an ASCII character (R53), not the separator and not a
character of the line's end (R80). -/
def isTextByte (b : Byte) : Bool :=
  decide (b.toNat < 0x80) && b != 0x2C#8 && b != 0x0D#8 && b != 0x0A#8

/-- The text of one number of a telemetry line: at least one byte, each a text byte. -/
def isFieldText (t : List Byte) : Bool :=
  !t.isEmpty && t.all isTextByte

/-- All six number fields of a telemetry line are texts. -/
def TelemetryText.wf (t : TelemetryText) : Bool :=
  isFieldText t.tx && isFieldText t.ty && isFieldText t.dx && isFieldText t.dy && isFieldText t.pidH && isFieldText t.pidV

/-- Well-formedness of an operation. A UL_DIGIT is 0 to 9 (R71: 1010 to 1111 are OTHER), a UL_OTHER is of class
OTHER, the fields of a telemetry line are texts. -/
def Instr.wf : Instr → Bool
  | .decByte _ => true
  | .mbPublish _ _ _ => true
  | .mbTake => true
  | .pidCalc _ _ => true
  | .pidReset _ => true
  | .pidSetParams _ _ _ _ => true
  | .pidGetParams _ => true
  | .smTick => true
  | .smEnable => true
  | .smDisable => true
  | .encMove _ _ _ _ => true
  | .encStop _ => true
  | .encEnable _ _ => true
  | .hostStopAll => true
  | .hostMove _ _ _ _ => true
  | .hostMotorEnable _ _ => true
  | .hostSetFlag _ _ => true
  | .frameMove _ _ _ _ _ => true
  | .frameStop _ => true
  | .frameEnable _ _ => true
  | .ulTermLf => true
  | .ulTermCr => true
  | .ulDigit d => decide (d.toNat ≤ 9)
  | .ulComma => true
  | .ulOther b => isOtherByte b
  | .tlmData text _ => text.wf

end Sys2Proof
end

