-- ==== Sys2Proof/Decode.lean ====
section
/-! DEFINITION. The formats of spec/30_encoding.md: frame layouts (R74 to R76), the decoder (total, each rejection under a name of
its own) and after it the encoder, both written from the tables of R71, R74 to R76, R80 and R82. -/

namespace Sys2Proof

/-- Why words spell no operation. An operation word that spells none is refused with `illegal_op` (R83); bytes that are no frame or
no line have no behaviour (R79, R80; unspelled of Sys2Proof/Machine/Ops.lean). -/
inductive DecodeError where
  /-- The OPC is in no row of R82. -/
  | unknownOpc
  /-- The SEL is none its row lists. -/
  | badSelector
  /-- Fewer payload words than the OPC fixes (R84). -/
  | missingPayload
  /-- More payload words than the OPC fixes (R84; DEDUCED, safe, log entry 11). -/
  | extraPayload
  /-- A payload value wider than its operand (R190: taken modulo nothing). -/
  | payloadWidth
  /-- Bytes that are none of the three frames the block emits (R79; DESIGN CHOICE, safe, log entry 29). -/
  | badFrame
  /-- Bytes that are no telemetry line (R80; DESIGN CHOICE, safe, log entry 29). -/
  | badTelemetry
  deriving DecidableEq, Repr

/-! ### Codes of the operands -/

/-- The motor id byte (R188). -/
def Motor.id : Motor → Byte
  | .vertical => Config.idV
  | .horizontal => Config.idH

/-- The axis selector of R82. -/
def Axis.sel : Axis → Byte
  | .horizontal => 0x00#8
  | .vertical => 0x01#8

/-- The flag selector of R82. -/
def HostFlag.sel : HostFlag → Byte
  | .feedbackEn => 0x00#8
  | .debugEn => 0x01#8

/-- The dir byte of R74: 0x00 CCW, 0x01 CW. -/
def Rotation.byte : Rotation → Byte
  | .ccw => 0x00#8
  | .cw => 0x01#8

/-- The number of a TrackingMode (R29): 0 Idle, 1 Tracking, 2 Locked. -/
def TrackingMode.code : TrackingMode → Nat
  | .idle => 0
  | .tracking => 1
  | .locked => 2

/-- The enable byte of R76 and, zero-extended, the payload word of a bit (R82). -/
def bitByte (b : Bool) : Byte := if b then 0x01#8 else 0x00#8

/-! ### Frame layouts -/

/-- Format MOVE, 13 bytes (R74): big-endian speed and pulse magnitude (R53). -/
def moveFrame (m : Motor) (dir : Rotation) (speed : Word16) (accel : Byte) (pulses : Word32) : Frame :=
  [m.id, Config.codeMove, dir.byte, speed.extractLsb' 8 8, speed.extractLsb' 0 8, accel,
    pulses.extractLsb' 24 8, pulses.extractLsb' 16 8, pulses.extractLsb' 8 8, pulses.extractLsb' 0 8,
    Config.modeByte, Config.syncByte, Config.checksum]

/-- Format STOP, 5 bytes (R75). -/
def stopFrame (m : Motor) : Frame :=
  [m.id, Config.codeStop, Config.subStop, Config.syncByte, Config.checksum]

/-- Format EN, 6 bytes (R76). -/
def enableFrame (m : Motor) (enable : Bool) : Frame :=
  [m.id, Config.codeEnable, Config.subEnable, bitByte enable, Config.syncByte, Config.checksum]

/-! ### The decoder -/

/-- A SEL the row gives as 0x00. -/
def selZero (sel : Byte) (i : Except DecodeError Instr) : Except DecodeError Instr :=
  if sel = 0x00#8 then i else .error .badSelector

/-- An axis SEL: 0x00 H, 0x01 V. -/
def selAxis (sel : Byte) (k : Axis → Except DecodeError Instr) : Except DecodeError Instr :=
  if sel = 0x00#8 then k .horizontal else if sel = 0x01#8 then k .vertical else .error .badSelector

/-- A motor id SEL: 0x01 or 0x02. -/
def selMotor (sel : Byte) (k : Motor → Except DecodeError Instr) : Except DecodeError Instr :=
  if sel = Config.idV then k .vertical else if sel = Config.idH then k .horizontal else .error .badSelector

/-- A flag SEL: 0x00 FEEDBACK_EN, 0x01 DEBUG_EN. -/
def selFlag (sel : Byte) (k : HostFlag → Except DecodeError Instr) : Except DecodeError Instr :=
  if sel = 0x00#8 then k .feedbackEn else if sel = 0x01#8 then k .debugEn else .error .badSelector

/-- An OPC with no payload word. -/
def payload0 (p : List Word32) (i : Except DecodeError Instr) : Except DecodeError Instr :=
  match p with
  | [] => i
  | _ :: _ => .error .extraPayload

/-- An OPC with one payload word. -/
def payload1 (p : List Word32) (k : Word32 → Except DecodeError Instr) : Except DecodeError Instr :=
  match p with
  | [] => .error .missingPayload
  | [a] => k a
  | _ :: _ :: _ => .error .extraPayload

/-- An OPC with three payload words. -/
def payload3 (p : List Word32) (k : Word32 → Word32 → Word32 → Except DecodeError Instr) : Except DecodeError Instr :=
  match p with
  | [] => .error .missingPayload
  | [_] => .error .missingPayload
  | [_, _] => .error .missingPayload
  | [a, b, c] => k a b c
  | _ :: _ :: _ :: _ :: _ => .error .extraPayload

/-- A 16-bit operand in a payload word, zero-extended, an int16 one too (R82; DEDUCED, unsafe, log entry 30). -/
def pay16 (w : Word32) (k : Word16 → Except DecodeError Instr) : Except DecodeError Instr :=
  if w.toNat < 2 ^ 16 then k (w.extractLsb' 0 16) else .error .payloadWidth

/-- A uint8 operand in a payload word, zero-extended (R82). -/
def pay8 (w : Word32) (k : Byte → Except DecodeError Instr) : Except DecodeError Instr :=
  if w.toNat < 2 ^ 8 then k (w.extractLsb' 0 8) else .error .payloadWidth

/-- A bit operand in a payload word, in bit 0 (R82). -/
def payBit (w : Word32) (k : Bool → Except DecodeError Instr) : Except DecodeError Instr :=
  if w = 0#32 then k false else if w = 1#32 then k true else .error .payloadWidth

/-- Format OP (R82): the OPC chooses the row, the row reads SEL and its payload words. -/
def decodeOp (opc sel : Byte) (p : List Word32) : Except DecodeError Instr :=
  match opc.toNat with
  | 0x01 => payload0 p (.ok (.decByte sel))
  | 0x02 => selZero sel (payload3 p fun x y v => pay16 x fun x => pay16 y fun y => payBit v fun v => .ok (.mbPublish x y v))
  | 0x03 => selZero sel (payload0 p (.ok .mbTake))
  | 0x10 => selAxis sel fun a => payload1 p fun e => .ok (.pidCalc a e)
  | 0x11 => selAxis sel fun a => payload0 p (.ok (.pidReset a))
  | 0x12 => selAxis sel fun a => payload3 p fun kp ki kd => .ok (.pidSetParams a kp ki kd)
  | 0x13 => selAxis sel fun a => payload0 p (.ok (.pidGetParams a))
  | 0x20 => selZero sel (payload0 p (.ok .smTick))
  | 0x21 => selZero sel (payload0 p (.ok .smEnable))
  | 0x22 => selZero sel (payload0 p (.ok .smDisable))
  | 0x30 => selMotor sel fun m => payload3 p fun g s a => pay16 s fun s => pay8 a fun a => .ok (.encMove m g s a)
  | 0x31 => selMotor sel fun m => payload0 p (.ok (.encStop m))
  | 0x32 => selMotor sel fun m => payload1 p fun e => payBit e fun e => .ok (.encEnable m e)
  | 0x40 => selZero sel (payload0 p (.ok .hostStopAll))
  | 0x41 => selMotor sel fun m => payload3 p fun g s a => pay16 s fun s => pay8 a fun a => .ok (.hostMove m g s a)
  | 0x42 => selMotor sel fun m => payload1 p fun e => payBit e fun e => .ok (.hostMotorEnable m e)
  | 0x43 => selFlag sel fun f => payload1 p fun v => payBit v fun v => .ok (.hostSetFlag f v)
  | _ => .error .unknownOpc

/-- Format UL (R71): every byte falls in exactly one class, tested in the table's order. -/
def decodeUplink (b : Byte) : Instr :=
  if b = Config.chLf then .ulTermLf
  else if b = Config.chCr then .ulTermCr
  else if 0x30 ≤ b.toNat ∧ b.toNat ≤ 0x39 then .ulDigit (b.extractLsb' 0 4)
  else if b = Config.chComma then .ulComma
  else .ulOther b

/-- The motor an id byte names (R188); no other id is a frame of this block (R79). -/
def motorOfId (b : Byte) : Except DecodeError Motor :=
  if b = Config.idV then .ok .vertical else if b = Config.idH then .ok .horizontal else .error .badFrame

/-- The rotation a dir byte names (R74). -/
def rotationOfByte (b : Byte) : Except DecodeError Rotation :=
  if b = 0x00#8 then .ok .ccw else if b = 0x01#8 then .ok .cw else .error .badFrame

/-- The bit an enable byte names (R76). -/
def bitOfByte (b : Byte) : Except DecodeError Bool :=
  if b = 0x00#8 then .ok false else if b = 0x01#8 then .ok true else .error .badFrame

/-- Which frame row the bytes CTL hands to Send are (R74 to R76, R78): their length and every constant byte must be their row's. These
are bytes on their way out, named by the table's rows; the block receives and decodes no frame (R79; DEDUCED, unsafe, log entry 8). -/
def frameOfSend (bytes : List Byte) : Except DecodeError Instr :=
  match bytes with
  | [m, fc, d, sh, sl, a, p3, p2, p1, p0, md, sy, ck] =>
    if fc = Config.codeMove ∧ md = Config.modeByte ∧ sy = Config.syncByte ∧ ck = Config.checksum then
      match motorOfId m, rotationOfByte d with
      | .ok m, .ok d => .ok (.frameMove m d (sh ++ sl) a (p3 ++ p2 ++ p1 ++ p0))
      | _, _ => .error .badFrame
    else .error .badFrame
  | [m, fc, sub, sy, ck] =>
    if fc = Config.codeStop ∧ sub = Config.subStop ∧ sy = Config.syncByte ∧ ck = Config.checksum then
      match motorOfId m with
      | .ok m => .ok (.frameStop m)
      | .error e => .error e
    else .error .badFrame
  | [m, fc, sub, en, sy, ck] =>
    if fc = Config.codeEnable ∧ sub = Config.subEnable ∧ sy = Config.syncByte ∧ ck = Config.checksum then
      match motorOfId m, bitOfByte en with
      | .ok m, .ok en => .ok (.frameEnable m en)
      | _, _ => .error .badFrame
    else .error .badFrame
  | _ => .error .badFrame

/-- The fields of a line: the runs of bytes between its commas (R80). -/
def splitFields : List Byte → List (List Byte)
  | [] => [[]]
  | b :: bs =>
    if b = Config.chComma then [] :: splitFields bs
    else
      match splitFields bs with
      | [] => [[b]]
      | f :: fs => (b :: f) :: fs

/-- "DATA", the first field of a telemetry line (R80). -/
def dataTag : List Byte := [0x44#8, 0x41#8, 0x54#8, 0x41#8]

/-- The mode a state digit names (R80: 0 Idle, 1 Tracking, 2 Locked). That the field is exactly one ASCII digit, with no leading zero,
is in no source (91_not_in_source.md N9; DESIGN CHOICE, unsafe, log entry 34). -/
def modeOfDigit (b : Byte) : Except DecodeError TrackingMode :=
  if b = 0x30#8 then .ok .idle else if b = 0x31#8 then .ok .tracking else if b = 0x32#8 then .ok .locked
  else .error .badTelemetry

/-- Format TLM (R80): "DATA,<tx>,<ty>,<dx>,<dy>,<pid_h>,<pid_v>,<state>" and the two end bytes. The six number texts are free (log
entry 21); the state field is one digit (DESIGN CHOICE, unsafe, log entry 34). -/
def decodeTelemetry (bytes : List Byte) : Except DecodeError Instr :=
  match splitFields bytes with
  | [tag, tx, ty, dx, dy, pidH, pidV, [st, cr, lf]] =>
    let text : TelemetryText := { tx := tx, ty := ty, dx := dx, dy := dy, pidH := pidH, pidV := pidV }
    if tag = dataTag ∧ cr = Config.chCr ∧ lf = Config.chLf ∧ text.wf = true then
      match modeOfDigit st with
      | .ok mode => .ok (.tlmData text mode)
      | .error e => .error e
    else .error .badTelemetry
  | _ => .error .badTelemetry

/-- The decoder: total on whatever a port is offered (R70). -/
def decode : Words → Except DecodeError Instr
  | .uplink b => .ok (decodeUplink b)
  | .op w payload => decodeOp (w.extractLsb' 8 8) (w.extractLsb' 0 8) payload
  | .send bytes => frameOfSend bytes
  | .telemetry bytes => decodeTelemetry bytes

/-! ### The encoder -/

/-- An operation word with OPC and SEL (R82: w[15:8] and w[7:0]). -/
def opWord (opc sel : Byte) (payload : List Word32) : Words := .op (opc ++ sel) payload

/-- The state field of a line: the number of R80 as one ASCII digit (its text form is in no source, 91_not_in_source.md N9;
DESIGN CHOICE, unsafe, log entry 34). -/
def modeDigit (m : TrackingMode) : Byte := 0x30#8 + BitVec.ofNat 8 m.code

/-- The bytes of a telemetry line (R80; the state field: log entry 34). -/
def telemetryLine (t : TelemetryText) (m : TrackingMode) : List Byte :=
  let c := Config.chComma
  dataTag ++ c :: t.tx ++ c :: t.ty ++ c :: t.dx ++ c :: t.dy ++ c :: t.pidH ++ c :: t.pidV ++
    c :: [modeDigit m, Config.chCr, Config.chLf]

/-- The words of an operation, from the same tables as the decoder. -/
def encode : Instr → Words
  | .decByte b => opWord 0x01#8 b []
  | .mbPublish x y v => opWord 0x02#8 0x00#8 [x.setWidth 32, y.setWidth 32, (bitByte v).setWidth 32]
  | .mbTake => opWord 0x03#8 0x00#8 []
  | .pidCalc a e => opWord 0x10#8 a.sel [e]
  | .pidReset a => opWord 0x11#8 a.sel []
  | .pidSetParams a kp ki kd => opWord 0x12#8 a.sel [kp, ki, kd]
  | .pidGetParams a => opWord 0x13#8 a.sel []
  | .smTick => opWord 0x20#8 0x00#8 []
  | .smEnable => opWord 0x21#8 0x00#8 []
  | .smDisable => opWord 0x22#8 0x00#8 []
  | .encMove m g s a => opWord 0x30#8 m.id [g, s.setWidth 32, a.setWidth 32]
  | .encStop m => opWord 0x31#8 m.id []
  | .encEnable m e => opWord 0x32#8 m.id [(bitByte e).setWidth 32]
  | .hostStopAll => opWord 0x40#8 0x00#8 []
  | .hostMove m g s a => opWord 0x41#8 m.id [g, s.setWidth 32, a.setWidth 32]
  | .hostMotorEnable m e => opWord 0x42#8 m.id [(bitByte e).setWidth 32]
  | .hostSetFlag f v => opWord 0x43#8 f.sel [(bitByte v).setWidth 32]
  | .frameMove m d s a p => .send (moveFrame m d s a p)
  | .frameStop m => .send (stopFrame m)
  | .frameEnable m e => .send (enableFrame m e)
  | .ulTermLf => .uplink Config.chLf
  | .ulTermCr => .uplink Config.chCr
  | .ulDigit d => .uplink (0x3#4 ++ d)
  | .ulComma => .uplink Config.chComma
  | .ulOther b => .uplink b
  | .tlmData t m => .telemetry (telemetryLine t m)

/-! ### Words numbered as spec/opcode_table.json numbers them -/

/-- The lowest n bytes of a number, most significant first: the table gives a frame's byte 0 the highest bits. -/
def bytesOfNat : Nat → Nat → List Byte
  | 0, _ => []
  | n + 1, w => BitVec.ofNat 8 (w / 2 ^ (8 * n)) :: bytesOfNat n w

/-- How many payload words follow an OPC (R82, R84). -/
def payloadCount (opc : Byte) : Nat :=
  match opc.toNat with
  | 0x02 => 3
  | 0x10 => 1
  | 0x12 => 3
  | 0x30 => 3
  | 0x32 => 1
  | 0x41 => 3
  | 0x42 => 1
  | 0x43 => 1
  | _ => 0

/-- The payload words that follow an operation word in one number, the first at bit 16. -/
def payloadOfNat : Nat → Nat → List Word32
  | 0, _ => []
  | n + 1, w => BitVec.ofNat 32 w :: payloadOfNat n (w / 2 ^ 32)

/-- The words of a table row from one number: 8 bits is format UL; 16 bits (112 with three payload words) is
format OP, the payload above the word; 40, 48 and 104 bits are the motor frames; any other length is
the text of a telemetry line (DEDUCED, unsafe, log entry 10). -/
def wordsOfTable (nbits w : Nat) : Words :=
  if nbits = 8 then .uplink (BitVec.ofNat 8 w)
  else if nbits = 16 ∨ nbits = 112 then
    .op (BitVec.ofNat 16 w) (payloadOfNat (payloadCount (BitVec.ofNat 8 (w / 2 ^ 8))) (w / 2 ^ 16))
  else if nbits = 40 ∨ nbits = 48 ∨ nbits = 104 then .send (bytesOfNat (nbits / 8) w)
  else .telemetry (bytesOfNat (nbits / 8) w)

/-- The operation the decoder reads from a table row's bits, if any. -/
def decodeTableWord (nbits w : Nat) : Option Instr :=
  match decode (wordsOfTable nbits w) with
  | .ok i => some i
  | .error _ => none

end Sys2Proof
end

