-- ==== Sys2Proof/Machine/Binary32.lean ====
section
/-! DEFINITION. The numerics of the block (spec/00_scope.md R8, R12): IEEE 754 binary32, every operation rounded to
nearest, ties to even, with no fusion, which is the default of the parameter NUM (R7). A finite value is an integer count of units of 2^-149, so
that each operation is exact integer or rational arithmetic followed by ONE rounding. -/

namespace Sys2Proof.Machine

/-- The sign bit. -/
def fsign (x : F32) : Bool := x.msb

/-- The pattern below the sign bit. On values that are no NaN it orders magnitudes. -/
def fmag (x : F32) : Nat := x.toNat % 2 ^ 31

/-- The magnitude pattern of infinity. -/
def infMag : Nat := 0x7F800000

def isNaN (x : F32) : Bool := decide (infMag < fmag x)
def isInf (x : F32) : Bool := decide (fmag x = infMag)
def isFinite (x : F32) : Bool := decide (fmag x < infMag)

/-- The binary32 with this sign and magnitude pattern. -/
def fpack (neg : Bool) (mag : Nat) : F32 := BitVec.ofNat 32 (if neg then 2 ^ 31 + mag else mag)

/-- The one NaN an operation answers. No NaN reaches a register, an output or a result
(R131, R134, R190 refuse it first), so its pattern is never observed (DESIGN CHOICE, safe, log entry 18). -/
def qNaN : F32 := 0x7FC00000#32

/-- +0.0, the value of a cleared transient register (R131). -/
def fzero : F32 := 0#32

/-- `fneg` flips the sign (R12). -/
def fneg (x : F32) : F32 := x ^^^ 0x80000000#32

/-- `fabs` clears the sign (R12). -/
def fabs (x : F32) : F32 := x &&& 0x7FFFFFFF#32

/-- The magnitude of a finite value, counted in units of 2^-149 (exact). -/
def funits (x : F32) : Nat :=
  let e := fmag x / 2 ^ 23
  let f := fmag x % 2 ^ 23
  if e = 0 then f else (f + 2 ^ 23) * 2 ^ (e - 1)

/-- A finite value, counted in units of 2^-149 (exact). -/
def fvalue (x : F32) : Int := if fsign x then -(funits x : Int) else (funits x : Int)

/-- The magnitude pattern nearest to n/d units, ties to even (R8); a magnitude that rounds to 2^128 or more is infinity. -/
def roundMag (n d : Nat) : Nat :=
  let k := Nat.log2 (n / d) - 23
  let den := d * 2 ^ k
  let m := n / den
  let r := n % den
  let m' := if den < 2 * r ∨ (2 * r = den ∧ m % 2 = 1) then m + 1 else m
  min (k * 2 ^ 23 + m') infMag

/-- The integer order of the patterns: among values that are no NaN it is the order of the values, with -0.0 equal to +0.0. -/
def fkey (x : F32) : Int := if fsign x then -(fmag x : Int) else (fmag x : Int)

/-- `flt`, the ordered comparison (R12): false when either operand is NaN. -/
def flt (a b : F32) : Bool := !isNaN a && !isNaN b && decide (fkey a < fkey b)

/-- `fgt`, the ordered comparison (R12): false when either operand is NaN. -/
def fgt (a b : F32) : Bool := !isNaN a && !isNaN b && decide (fkey b < fkey a)

/-- Rounded addition. An exact zero sum is +0.0 unless both operands are -0.0 (IEEE 754; PRESUMED, unsafe, log entry 17). -/
def ieeeAdd (a b : F32) : F32 :=
  if isNaN a || isNaN b then qNaN
  else if isInf a then (if isInf b && fsign a != fsign b then qNaN else a)
  else if isInf b then b
  else
    let z := fvalue a + fvalue b
    if z = 0 then fpack (fsign a && fsign b) 0 else fpack (decide (z < 0)) (roundMag z.natAbs 1)

/-- Rounded subtraction. -/
def ieeeSub (a b : F32) : F32 := ieeeAdd a (fneg b)

/-- Rounded multiplication. -/
def ieeeMul (a b : F32) : F32 :=
  let s := fsign a != fsign b
  if isNaN a || isNaN b then qNaN
  else if isInf a || isInf b then (if fmag a = 0 || fmag b = 0 then qNaN else fpack s infMag)
  else fpack s (roundMag (funits a * funits b) (2 ^ 149))

/-- Rounded division. -/
def ieeeDiv (a b : F32) : F32 :=
  let s := fsign a != fsign b
  if isNaN a || isNaN b then qNaN
  else if isInf a then (if isInf b then qNaN else fpack s infMag)
  else if isInf b then fpack s 0
  else if fmag b = 0 then (if fmag a = 0 then qNaN else fpack s infMag)
  else fpack s (roundMag (funits a * 2 ^ 149) (funits b))

/-- What a numerics configuration NUM gives (R7, R8): the four rounded operations, and how the one expression that mixes products and
sums, a*b + c*d + e*f of R131 step 4, is evaluated (its order and any fusion, 93_implementation_defined.md G4). -/
structure Numerics where
  add : F32 → F32 → F32
  sub : F32 → F32 → F32
  mul : F32 → F32 → F32
  div : F32 → F32 → F32
  dot3 : F32 → F32 → F32 → F32 → F32 → F32 → F32
  deriving Inhabited

/-- The spec's default NUM (R7, R8): binary32, each operation rounded to nearest even, in the written order, nothing fused
(PRESUMED, unsafe, log entry 17). -/
def ieee : Numerics :=
  { add := ieeeAdd
    sub := ieeeSub
    mul := ieeeMul
    div := ieeeDiv
    dot3 := fun a b c d e f => ieeeAdd (ieeeAdd (ieeeMul a b) (ieeeMul c d)) (ieeeMul e f) }

/-- `f32(n)` of R12: an integer as a binary32 (exact for every integer of a rule). -/
def f32 (n : Int) : F32 := fpack (decide (n < 0)) (roundMag (n.natAbs * 2 ^ 149) 1)

/-- `roundHalfAway(q)` of R185 for finite q: sign(q) times the floor of |q| + 1/2, on the exact value of q (PRESUMED by the spec,
unsafe, log entry 24). R185 gives no value for a q that is not finite, which a finite angle reaches where angle * 3200 overflows: an
infinity, or the NaN of another NUM, is read as a count of at least 2^128, which R190's bound refuses (DESIGN CHOICE, safe, log
entry 32). -/
def roundHalfAway (q : F32) : Int :=
  let n : Nat := (2 * funits q + 2 ^ 149) / 2 ^ 150
  if fsign q then -(n : Int) else (n : Int)

end Sys2Proof.Machine
end

