-- ==== Sys2Proof/Config.lean ====
section
/-! DEFINITION. The OPEN parameters of spec/00_scope.md R7 and the free values of 93_implementation_defined.md U2 to U4, U8:
constants with no body, so that no proof can see what they are. The constants the spec fixes
(R6) are in Sys2Proof/Machine/Params.lean. -/

namespace Sys2Proof

/-- PIDCFG_a (R7): the construction values of one AxisPID. -/
structure PidConfig where
  kp : F32
  ki : F32
  kd : F32
  imax : F32
  omax : F32
  dz : Byte
  deriving DecidableEq, Repr, Inhabited

/-- The configurations R130 admits: five finite values, with integral_max and output_max not below zero. -/
def PidConfig.admitted (c : PidConfig) : Bool :=
  Machine.isFinite c.kp && Machine.isFinite c.ki && Machine.isFinite c.kd && Machine.isFinite c.imax &&
    Machine.isFinite c.omax && !Machine.flt c.imax Machine.fzero && !Machine.flt c.omax Machine.fzero

/-- The parameter NUM (R7): the spec's default numerics (R8), or any other, of which the spec says nothing. -/
inductive NumConfig where
  | standard
  | other (k : Nat)
  deriving DecidableEq, Repr, Inhabited

/-- The arguments a model takes at construction (R241): PIDCFG_H, PIDCFG_V, DIR_POS (the rotation sent for a positive
pulse count, R183), NUM, FEEDBACK_EN_RESET and DEBUG_EN_RESET. -/
structure BootParams where
  pidH : PidConfig
  pidV : PidConfig
  dirPos : Rotation
  num : NumConfig
  feedbackEnReset : Bool
  debugEnReset : Bool
  deriving DecidableEq, Repr, Inhabited

/-- The parameters R241 accepts at construction. -/
def BootParams.admitted (p : BootParams) : Bool := p.pidH.admitted && p.pidV.admitted

namespace Config

/-- A free choice of parameters, constrained by nothing. -/
opaque anyParams : BootParams

/-- The parameters of this block: any admitted ones. Every admitted choice is a value of `anyParams`; one that R130
does not admit gives no block at all, so the all-zero configuration stands in its place (DESIGN CHOICE, safe, log entry 13). -/
def params : BootParams :=
  if anyParams.admitted then anyParams
  else { anyParams with pidH := ⟨0, 0, 0, 0, 0, 0⟩, pidV := ⟨0, 0, 0, 0, 0, 0⟩ }

/-- U2: whether the n-th group of sends, where it is a SendBoth, sends the horizontal frame first (R157). -/
opaque horizontalFirst : Nat → Bool

/-- U3: how many bytes of the k-th frame issued to a motor that motor receives (R189). -/
opaque bytesDelivered : Motor → Nat → Nat

/-- The numerics of a NUM that is not the default (R7, G4): any operations at all (free, safe, log entry 17). -/
opaque otherNumerics : Nat → Machine.Numerics

/-- A text for each integer field and value of a telemetry line, constrained by nothing. -/
opaque anyIntText : TlmInt → Int → List Byte

/-- A text for each real field and value of a telemetry line, constrained by nothing. -/
opaque anyRealText : TlmReal → F32 → List Byte

/-- The text form of an integer in its field of a telemetry line, which no source gives (R80, 91_not_in_source.md N9): any ASCII text
(R53) that leaves the line's fields apart; a text that does not is no such form, and "0" stands in its place (free, safe, log entry 21). -/
def intText (f : TlmInt) (n : Int) : List Byte :=
  if isFieldText (anyIntText f n) then anyIntText f n else [0x30#8]

/-- The text form of a real in its field of a telemetry line, likewise (free, safe, log entry 21). -/
def realText (f : TlmReal) (x : F32) : List Byte :=
  if isFieldText (anyRealText f x) then anyRealText f x else [0x30#8]

/-- U4: which of the records that give one and the same line the n-th telemetry line is chosen from (R205). -/
opaque telemetryPick : Nat → Nat

end Config

end Sys2Proof
end

