-- ==== Sys2Proof/Machine/State.lean ====
section
/-! DEFINITION. The complete state of the block (spec/10_state.md R23, R33), the few fields the model adds to run it, the
reasons a step can stop, and the power-on state (spec/70_reset_and_hazards.md R240). -/

namespace Sys2Proof.Machine

/-- A reason the block refuses an operation for (R217): no state changes and the mark REFUSED is set. It is a
next state of the block, not a stop of the model. -/
inductive RefuseReason where
  /-- Any operation word outside R82, or with a payload missing, in excess or too wide (R83). -/
  | illegalOp
  /-- An operation performed by the agent that may not perform it (R60, R217, R223). -/
  | wrongAgent
  /-- Construction with a PIDCFG outside R130. -/
  | badConfig
  /-- PID_SET_PARAMS with a non-finite gain (R134). -/
  | badGain
  /-- PID_CALC whose unclamped output is NaN, or whose error is not finite (R131). -/
  | pidNan
  /-- ENC_MOVE of a non-finite angle (R190). -/
  | badAngle
  /-- ENC_MOVE of more than 2^31 - 1 pulses (R190). -/
  | pulseRange
  deriving DecidableEq, Repr

/-- TargetSample (R16, R120): {x: int16, y: int16, valid: bit}. -/
structure Sample where
  x : Word16
  y : Word16
  valid : Bool
  deriving DecidableEq, Repr

/-- The decoder's registers (R24): the line buffer LB[0..LINE_CAP-1] and the accumulated-byte count LI, an integer
0..LINE_MAX. LINE_CAP of R6 sizes both. -/
structure LineRegs where
  lb : Vector Byte Config.lineCap
  li : Fin Config.lineCap
  deriving DecidableEq, Repr

/-- The mailbox cell (R25): MB.X, MB.Y, MB.VALID, MB.READY. -/
structure Mailbox where
  x : Word16
  y : Word16
  valid : Bool
  ready : Bool
  deriving DecidableEq, Repr

/-- One AxisPID bank (R26): the gains, the limits and the transient registers. -/
structure PidBank where
  kp : F32
  ki : F32
  kd : F32
  imax : F32
  omax : F32
  dz : Byte
  err : F32
  last : F32
  integ : F32
  deriv : F32
  deriving DecidableEq, Repr

/-- The tracking state machine's registers (R28): SM.EN, SM.MODE, SM.DWELL (uint8), SM.LOSS (uint32). -/
structure TrackRegs where
  en : Bool
  mode : TrackingMode
  dwell : BitVec 8
  loss : BitVec 32
  deriving DecidableEq, Repr

/-- The collaborator's flags (R203): HOST.FEEDBACK_EN and HOST.DEBUG_EN. -/
structure HostRegs where
  feedbackEn : Bool
  debugEn : Bool
  deriving DecidableEq, Repr

/-- One entry of the stream FB (R204): the record, the index of the tick that emitted it, and HOST.FEEDBACK_EN at
that tick, which decides whether telemetry may choose it (R205). -/
structure FeedbackEntry where
  record : FeedbackRecord
  tick : Nat
  feedbackEn : Bool
  deriving DecidableEq, Repr

/-- Which motors one Send or SendBoth addressed (R13, R150); a SendBoth leaves its order open (R157). -/
inductive SendGroup where
  | one (m : Motor)
  | both
  deriving DecidableEq, Repr

/-- What the latest operation answered (R15, and the Result of each rule): nothing, a PID output, the gains, what a
Take returned, an encoded frame, or that it was refused (DESIGN CHOICE, safe, log entry 6). -/
inductive Result where
  | nothing
  | output (u : F32)
  | gains (kp ki kd : F32)
  | sample (s : Option Sample)
  | frame (f : Frame)
  | refused (r : RefuseReason)
  deriving DecidableEq, Repr

/-- One operation the environment offers: the agent that performs it and its words (R22, R85). -/
structure Offer where
  agent : Agent
  words : Words
  deriving DecidableEq, Repr

/-- The state. The registers of R23 and the streams of R33 come first; the fields from `tlm` on are the model's own
(INVENTORY.md says of each what it is for). -/
@[ext]
structure State where
  /-- LB and LI. -/
  line : LineRegs
  /-- MB.X, MB.Y, MB.VALID, MB.READY. -/
  mb : Mailbox
  /-- PID[H]. -/
  pidH : PidBank
  /-- PID[V]. -/
  pidV : PidBank
  /-- SM.EN, SM.MODE, SM.DWELL, SM.LOSS. -/
  sm : TrackRegs
  /-- HOST.FEEDBACK_EN, HOST.DEBUG_EN. -/
  host : HostRegs
  /-- REFUSED: set by any refused operation and never cleared (R217). -/
  refused : Bool
  /-- OUT[1]: the frames issued to the vertical motor, oldest first. -/
  out1 : List Frame
  /-- OUT[2]: the frames issued to the horizontal motor, oldest first. -/
  out2 : List Frame
  /-- FB: the feedback records emitted, oldest first. -/
  fb : List FeedbackEntry
  /-- LOST: the loss counts of the "target lost" events emitted, oldest first. -/
  lost : List (BitVec 32)
  /-- TLM: the records telemetry has put on its downlink, oldest first (R205). -/
  tlm : List FeedbackEntry
  /-- The sends in the order performed; the counter the open order of a SendBoth is drawn at (R157). -/
  sendLog : List SendGroup
  /-- How many SM_TICK operations CTL has performed (R205; log entries 12 and 33). -/
  tickIndex : Nat
  /-- DIR_POS, an argument of the model (R7, R241); no operation writes it. -/
  dirPos : Rotation
  /-- NUM, an argument of the model (R7, R241): the numerics every rounded operation is taken from (R8); no operation writes it. -/
  num : NumConfig
  /-- The agent that performs the present operation (R20). -/
  actor : Agent
  /-- The operations the environment still offers, next first (R22). -/
  inbox : List Offer
  /-- What the latest operation answered. -/
  result : Result
  deriving DecidableEq, Repr

/-- The block raises no exception and no operation faults (R15, R215): there is no fault reason. -/
inductive Fault where
  deriving DecidableEq, Repr

/-- Why the model gives an operation no meaning. -/
inductive Refusal where
  /-- Raised only by an arm of exec that has no meaning yet; every arm has one, so nothing raises it. Safe: nothing can be
  proved of a run that stops. -/
  | notModelled (mnemonic : String)
  deriving DecidableEq, Repr

/-- A PID bank at construction (R241): gains and limits from PIDCFG_a, the transient registers +0.0. -/
def PidBank.powerOn (c : PidConfig) : PidBank :=
  { kp := c.kp, ki := c.ki, kd := c.kd, imax := c.imax, omax := c.omax, dz := c.dz,
    err := fzero, last := fzero, integ := fzero, deriv := fzero }

/-- The power-on state of a block with these parameters (R240). LB's contents are in no source and are taken as zero bytes (DESIGN
CHOICE, unsafe, log entry 15); the model's own `actor` and `result` start as CTL and nothing (DESIGN CHOICE,
unsafe, log entry 16). -/
def State.powerOn (p : BootParams) : State :=
  { line := { lb := Vector.replicate Config.lineCap 0x00#8, li := 0 }
    mb := { x := 0x0000#16, y := 0x0000#16, valid := false, ready := false }
    pidH := PidBank.powerOn p.pidH
    pidV := PidBank.powerOn p.pidV
    sm := { en := false, mode := .idle, dwell := 0#8, loss := 0#32 }
    host := { feedbackEn := p.feedbackEnReset, debugEn := p.debugEnReset }
    refused := false
    out1 := [], out2 := [], fb := [], lost := [], tlm := [], sendLog := []
    tickIndex := 0
    dirPos := p.dirPos
    num := p.num
    actor := .ctl
    inbox := []
    result := .nothing }

/-- The machine right after reset: power-on with the block's own parameters (R240, R241). -/
def State.reset : State := State.powerOn Config.params

end Sys2Proof.Machine
end

