-- ==== Sys2Proof/Machine/Flags.lean ====
section
/-! DEFINITION. Every condition the spec's operations test: byte classes (R71), the deadzone (R131, R155), clamping (R131), the stop
threshold (R181), the lock (R156), the lost event (R159) and the telemetry gate (R205). The block has no
condition codes (R31). -/

namespace Sys2Proof.Machine

/-- TERM_LF or TERM_CR (R100). -/
def isTerminator (b : Byte) : Bool := b == Config.chLf || b == Config.chCr

/-- DIGIT (R71). -/
def isDigit (b : Byte) : Bool := decide (0x30 ≤ b.toNat) && decide (b.toNat ≤ 0x39)

/-- DIGIT or COMMA: the bytes the decoder accumulates (R100). -/
def isAccepted (b : Byte) : Bool := isDigit b || b == Config.chComma

/-- |error| < deadzone, on binary32 (R131 step 1). -/
def inDeadzone (e : F32) (dz : Byte) : Bool := flt (fabs e) (f32 (dz.toNat : Int))

/-- |dx| < deadzone_h and |dy| < deadzone_v, on integers (R155). -/
def bothInDeadzone (dx dy : Int) (dzH dzV : Byte) : Bool :=
  decide (dx.natAbs < dzH.toNat) && decide (dy.natAbs < dzV.toNat)

/-- The clamp of R131 to [-lim, lim]: the limit itself is written where v is beyond it. -/
def clampSym (v lim : F32) : F32 :=
  if fgt v lim then lim else if flt v (fneg lim) then fneg lim else v

/-- |angle| < 0.1 (R181). -/
def belowStopThreshold (angle : F32) : Bool := flt (fabs angle) Config.stopThreshold

/-- The dwell count reaches LOCK_THRESHOLD (R156). -/
def dwellLocks (dwell : BitVec 8) : Bool := decide (Config.lockThreshold ≤ dwell.toNat)

/-- The lost event is due at this loss count: 1, 51, 101, … (R159). -/
def lostDue (loss : BitVec 32) : Bool := loss.toNat % Config.lostPeriod == 1

/-- A record may follow the telemetry lines already sent (R205): its tick is at least 10 after the latest one's. -/
def telemetrySpaced (sent : List FeedbackEntry) (e : FeedbackEntry) : Bool :=
  match sent.getLast? with
  | none => true
  | some l => decide (l.tick + Config.tlmPeriod ≤ e.tick)

/-- The texts of a record's line, its fields in order (R80, R81): tx and ty the sample's coordinates, then dx, dy, out_h, out_v. -/
def recordText (r : FeedbackRecord) : TelemetryText :=
  { tx := Config.intText .tx r.x
    ty := Config.intText .ty r.y
    dx := Config.intText .dx r.dx
    dy := Config.intText .dy r.dy
    pidH := Config.realText .pidH r.outH
    pidV := Config.realText .pidV r.outV }

/-- Telemetry may put this record on its downlink as the line with these texts and this state (R205): it was emitted
while HOST.FEEDBACK_EN was 1, the spacing allows it, and the line is the record's. -/
def telemetryEligible (sent : List FeedbackEntry) (t : TelemetryText) (m : TrackingMode) (e : FeedbackEntry) : Bool :=
  e.feedbackEn && telemetrySpaced sent e && decide (recordText e.record = t) && decide (e.record.mode = m)

end Sys2Proof.Machine
end

