-- ==== Sys2Proof/Machine/Operands.lean ====
section
/-! DEFINITION. The operand forms of the operations: the text of the line and its parse (R106 to R108), the bank an axis names
(R26), the direction byte's rotation (R183), and which agent performs an operation (R82, R223). -/

namespace Sys2Proof.Machine

/-- The operations a NUM gives (R7, R8). -/
def numerics : NumConfig → Numerics
  | .standard => ieee
  | .other k => Config.otherNumerics k

/-- `fadd` of R12, taken from NUM. -/
def fadd (n : NumConfig) (a b : F32) : F32 := (numerics n).add a b
/-- `fsub` of R12, taken from NUM. -/
def fsub (n : NumConfig) (a b : F32) : F32 := (numerics n).sub a b
/-- `fmul` of R12, taken from NUM. -/
def fmul (n : NumConfig) (a b : F32) : F32 := (numerics n).mul a b
/-- `fdiv` of R12, taken from NUM. -/
def fdiv (n : NumConfig) (a b : F32) : F32 := (numerics n).div a b
/-- a*b + c*d + e*f as NUM evaluates it (R8, R131): at the default fadd(fadd(fmul(a,b), fmul(c,d)), fmul(e,f)). -/
def fdot3 (n : NumConfig) (a b c d e f : F32) : F32 := (numerics n).dot3 a b c d e f

/-- The accumulated text LB[0..LI-1] (R24). -/
def LineRegs.text (l : LineRegs) : List Byte := l.lb.toList.take l.li.val

/-- DECVAL (R108), from a value already read: unbounded, stopping at the first non-digit. -/
def decvalFrom (v : Nat) : List Byte → Nat
  | [] => v
  | c :: cs => if isDigit c then decvalFrom (10 * v + (c.toNat - 0x30)) cs else v

/-- DECVAL (R108). -/
def decval (f : List Byte) : Nat := decvalFrom 0 f

/-- field1 of R106: the text before its first comma, or all of it. -/
def field1 (t : List Byte) : List Byte := t.takeWhile (· != Config.chComma)

/-- field2 of R106: the text after its first comma, or nothing. -/
def field2 (t : List Byte) : List Byte := (t.dropWhile (· != Config.chComma)).drop 1

/-- MKSAMPLE (R107): (0, 0) is the invalid sentinel, any other pair is clamped and valid. -/
def mkSample (xv yv : Nat) : Sample :=
  if xv = 0 ∧ yv = 0 then { x := 0x0000#16, y := 0x0000#16, valid := false }
  else { x := BitVec.ofNat 16 (min xv Config.frameSize), y := BitVec.ofNat 16 (min yv Config.frameSize), valid := true }

/-- PARSE (R106). -/
def parse (t : List Byte) : Sample := mkSample (decval (field1 t)) (decval (field2 t))

/-- The signed error of a coordinate against the optical center (R153). -/
def centerError (c : Word16) : Int := c.toInt - Config.center

/-- The PID bank of an axis (R26). -/
def State.pid (s : State) : Axis → PidBank
  | .horizontal => s.pidH
  | .vertical => s.pidV

/-- OUT[id] (R33): the frames issued to a motor. -/
def State.out (s : State) : Motor → List Frame
  | .vertical => s.out1
  | .horizontal => s.out2

/-- The other rotation: a negative count sends the other byte (R183). -/
def Rotation.other : Rotation → Rotation
  | .ccw => .cw
  | .cw => .ccw

/-- The rotation of a pulse count's sign (R183): DIR_POS for a positive count, the other for a negative one. -/
def rotationOf (dirPos : Rotation) (p : Int) : Rotation :=
  if 0 < p then dirPos else Rotation.other dirPos

/-- The flag an HOST_SET_FLAG selector names, written (R203). -/
def HostRegs.write (h : HostRegs) (f : HostFlag) (v : Bool) : HostRegs :=
  match f with
  | .feedbackEn => { h with feedbackEn := v }
  | .debugEn => { h with debugEn := v }

/-- The agent that may perform an operation (R82, R223). ING may perform only DEC_BYTE, and inside it MB_PUBLISH; everything else
is the control domain's, the pure ENC_* and the telemetry line too, for which R82 and R205 name no agent (DEDUCED, safe,
log entry 5). -/
def performer : Instr → Agent
  | .decByte _ => .ing
  | .mbPublish _ _ _ => .ing
  | .mbTake => .ctl
  | .pidCalc _ _ => .ctl
  | .pidReset _ => .ctl
  | .pidSetParams _ _ _ _ => .ctl
  | .pidGetParams _ => .ctl
  | .smTick => .ctl
  | .smEnable => .ctl
  | .smDisable => .ctl
  | .encMove _ _ _ _ => .ctl
  | .encStop _ => .ctl
  | .encEnable _ _ => .ctl
  | .hostStopAll => .ctl
  | .hostMove _ _ _ _ => .ctl
  | .hostMotorEnable _ _ => .ctl
  | .hostSetFlag _ _ => .ctl
  | .frameMove _ _ _ _ _ => .ctl
  | .frameStop _ => .ctl
  | .frameEnable _ _ => .ctl
  | .ulTermLf => .ing
  | .ulTermCr => .ing
  | .ulDigit _ => .ing
  | .ulComma => .ing
  | .ulOther _ => .ing
  | .tlmData _ _ => .ctl

/-- The internal operations (R82, R223): in the integrated block they occur only inside the operation that contains them. A frame
handed to Send is one of them: only SM_TICK, SM_DISABLE and HOST_* send frames (R13, R79; log entry 8). -/
def isInternal : Instr → Bool
  | .mbPublish _ _ _ => true
  | .mbTake => true
  | .pidCalc _ _ => true
  | .pidReset _ => true
  | .frameMove _ _ _ _ _ => true
  | .frameStop _ => true
  | .frameEnable _ _ => true
  | _ => false

/-- The offer of a table row's bits by the agent the table names. -/
def offerOfTable (nbits w : Nat) : Offer :=
  let words := wordsOfTable nbits w
  match decode words with
  | .ok i => { agent := performer i, words := words }
  | .error _ => { agent := .ctl, words := words }

end Sys2Proof.Machine
end

