-- ==== Sys2Proof/Machine/Ops.lean ====
section
/-! DEFINITION. The shared operations over the state: one named update per component, the outcome of an operation (R14, R15,
R217), Publish and Take (R120, R121), Send and SendBoth (R13, R150, R189), EmitFeedback (R204), EmitLost
(R159), the downlink (R205),
construction (R241) and taking the next offer (R22). The block takes no exception and
returns from none (R215, R220, R221): a refusal is the one way an operation is turned away. -/

namespace Sys2Proof.Machine

/-! ### Updates, one per component -/

def State.setLine (s : State) (v : LineRegs) : State := { s with line := v }
def State.setMb (s : State) (v : Mailbox) : State := { s with mb := v }
/-- Writes the bank of one axis; the banks are independent (R26). -/
def State.setPid (s : State) (a : Axis) (v : PidBank) : State :=
  match a with
  | .horizontal => { s with pidH := v }
  | .vertical => { s with pidV := v }
def State.setSm (s : State) (v : TrackRegs) : State := { s with sm := v }
def State.setHost (s : State) (v : HostRegs) : State := { s with host := v }
/-- Sets the mark REFUSED, which nothing clears (R217). -/
def State.markRefused (s : State) : State := { s with refused := true }
def State.setResult (s : State) (v : Result) : State := { s with result := v }
/-- Appends a frame to OUT[id] (R33). -/
def State.pushOut (s : State) (m : Motor) (f : Frame) : State :=
  match m with
  | .vertical => { s with out1 := s.out1 ++ [f] }
  | .horizontal => { s with out2 := s.out2 ++ [f] }
def State.pushFb (s : State) (e : FeedbackEntry) : State := { s with fb := s.fb ++ [e] }
def State.pushLost (s : State) (n : BitVec 32) : State := { s with lost := s.lost ++ [n] }
def State.pushTlm (s : State) (e : FeedbackEntry) : State := { s with tlm := s.tlm ++ [e] }
def State.logSend (s : State) (g : SendGroup) : State := { s with sendLog := s.sendLog ++ [g] }
/-- Counts one SM_TICK that CTL performs, a disabled tick and a refused one too (R205; DEDUCED, unsafe, log entry 12); one that ING
offers is not counted (DESIGN CHOICE, unsafe, log entry 33). -/
def State.countTick (s : State) : State := { s with tickIndex := s.tickIndex + 1 }
/-- Takes an offer out of the inbox: its agent becomes the one that performs. -/
def State.takeOffer (s : State) (o : Offer) (rest : List Offer) : State := { s with actor := o.agent, inbox := rest }

/-! ### The outcome of an operation -/

/-- A refused operation changes no state and sets the mark (R14, R217); its answer says why. It is a next state (DEDUCED, safe under
`Unrefused`, log entry 1). -/
def State.refuse (s : State) (r : RefuseReason) : State := s.markRefused.setResult (.refused r)

/-- An operation that answers nothing. -/
def State.done (s : State) : State := s.setResult .nothing

/-- An operation done from state `s`: its effect, or its refusal. -/
def State.settle (s : State) (t : Except RefuseReason State) : State :=
  match t with
  | .ok t => t
  | .error r => s.refuse r

/-- The access rule of R223: an operation of agent `a` takes `s` to `t` when `a` performs it, and is refused otherwise (DEDUCED, safe, log
entry 4). -/
def runAs (a : Agent) (s t : State) : Host.Outcome State Fault Refusal :=
  .next (if s.actor = a then t else s.refuse .wrongAgent)

/-! ### The mailbox -/

/-- Publish (R120), one atomic transition (R55). -/
def publish (smp : Sample) (s : State) : State :=
  s.setMb { x := smp.x, y := smp.y, valid := smp.valid, ready := true }

/-- What a Take returns (R121): the stored sample if one is pending. -/
def taken (s : State) : Option Sample :=
  if s.mb.ready then some { x := s.mb.x, y := s.mb.y, valid := s.mb.valid } else none

/-- The state a Take leaves (R121): READY cleared, the payload kept. -/
def afterTake (s : State) : State := s.setMb { s.mb with ready := false }

/-! ### Outputs -/

/-- Send (R13, R189): the frame joins the stream issued to the motor. -/
def send (m : Motor) (f : Frame) (s : State) : State := (s.pushOut m f).logSend (.one m)

/-- SendBoth (R150): a frame to each motor, in an order the log leaves open (R157). -/
def sendBoth (fH fV : Frame) (s : State) : State :=
  ((s.pushOut .horizontal fH).pushOut .vertical fV).logSend .both

/-- EmitFeedback (R204): the record joins FB with the index of its tick. -/
def emitFeedback (r : FeedbackRecord) (s : State) : State :=
  s.pushFb { record := r, tick := s.tickIndex, feedbackEn := s.host.feedbackEn }

/-- EmitLost where the loss count makes it due (R159). -/
def emitLostIfDue (s : State) : State :=
  if lostDue s.sm.loss then s.pushLost s.sm.loss else s

/-! ### The PID transient registers -/

/-- The four transient registers cleared, gains and limits kept (R131 step 1, R133). -/
def PidBank.clear (p : PidBank) : PidBank :=
  { p with err := fzero, last := fzero, integ := fzero, deriv := fzero }

/-! ### Open orders and deliveries (R157, R189) as views of the state -/

/-- The motors addressed, in the order the sends happen: each SendBoth at position n of the log draws its order (U2; free, safe,
log entry 19). -/
def issueOrderFrom : Nat → List SendGroup → List Motor
  | _, [] => []
  | n, .one m :: gs => m :: issueOrderFrom (n + 1) gs
  | n, .both :: gs =>
    (if Config.horizontalFirst n then [.horizontal, .vertical] else [.vertical, .horizontal]) ++ issueOrderFrom (n + 1) gs

/-- The order in which the frames of OUT[1] and OUT[2] were issued. -/
def issueOrder (s : State) : List Motor := issueOrderFrom 0 s.sendLog

/-- What a motor receives of the frames from its k-th on: of each, a drawn leading part, none of it or all of it included
(U3; free, safe, log entry 20). -/
def deliveredFrom (m : Motor) : Nat → List Frame → List (List Byte)
  | _, [] => []
  | k, f :: fs => f.take (Config.bytesDelivered m k) :: deliveredFrom m (k + 1) fs

/-- What a motor's Transport delivers of the issued stream (R189). -/
def delivered (s : State) (m : Motor) : List (List Byte) := deliveredFrom m 0 (s.out m)

/-- The telemetry downlink (R205): one line of format TLM for each record chosen, its seven fields in order (R80; log
entries 21 and 34). -/
def downlink (s : State) : List (List Byte) := s.tlm.map fun e => telemetryLine (recordText e.record) e.record.mode

/-! ### Construction, and the next operation -/

/-- Construction of a block (R130, R241): parameters outside the domain are refused. -/
def construct (p : BootParams) : Except RefuseReason State :=
  if p.admitted then .ok (State.powerOn p) else .error .badConfig

/-- The next operation the environment offers, and the state its performing starts from (R22; DESIGN CHOICE, safe, log entry 2). -/
def nextOffer (s : State) : Option (Words × State) :=
  match s.inbox with
  | [] => none
  | o :: rest => some (o.words, s.takeOffer o rest)

/-- What offered words that spell no operation do. An operation word is refused with illegal_op (R83). Bytes that are none of the frames
the block emits, or no telemetry line, have no behaviour at all: nothing is performed (R79, R80; DESIGN CHOICE, safe, log
entry 29). Every uplink byte spells an operation (R71). -/
def unspelled (w : Words) (s : State) : State :=
  match w with
  | .op _ _ => s.refuse .illegalOp
  | .uplink _ => s
  | .send _ => s
  | .telemetry _ => s

end Sys2Proof.Machine
end

