-- ==== Sys2Proof/Machine/Motion.lean ====
section
/-! DEFINITION. Family MotionEncoder (spec/45_motion_encoder.md): ENC_MOVE, ENC_STOP, ENC_ENABLE as pure functions to a frame, and
the three frame rows (R74 to R76): a frame handed to its motor's Transport by Send, on its way out; none is ever received (R79). -/

namespace Sys2Proof.Machine

/-- The pulse count of an angle (R182, R185): product first, quotient second, rounded half away from zero. A quotient that is not finite
counts as at least 2^128 pulses, so ENC_MOVE refuses it with pulse_range (DESIGN CHOICE, safe, log entry 32). -/
def pulsesOf (n : NumConfig) (angle : F32) : Int :=
  roundHalfAway (fdiv n (fmul n angle Config.pulsesPerRev) Config.degPerRev)

/-- ENC_MOVE (R180): a Stop below the threshold, else a Move; the two refusals are R190's. -/
def encMove (n : NumConfig) (dirPos : Rotation) (m : Motor) (angle : F32) (speed : Word16) (accel : Byte) : Except RefuseReason Frame :=
  if !isFinite angle then .error .badAngle
  else if belowStopThreshold angle then .ok (stopFrame m)
  else
    let p := pulsesOf n angle
    if Config.pulseMax < p.natAbs then .error .pulseRange
    else .ok (moveFrame m (rotationOf dirPos p) speed accel (BitVec.ofNat 32 p.natAbs))

/-- ENC_MOVE as an operation: it answers the frame and writes no register (R82, R180). -/
def answerMove (m : Motor) (angle : F32) (speed : Word16) (accel : Byte) (s : State) : Except RefuseReason State :=
  match encMove s.num s.dirPos m angle speed accel with
  | .ok f => .ok (s.setResult (.frame f))
  | .error r => .error r

/-- ENC_MOVE m, angle, speed, accel (R180): a pure function, not for ING to perform (R223; DEDUCED, safe, log entry 5). -/
def execEncMove (m : Motor) (angle : F32) (speed : Word16) (accel : Byte) (s : State) : Host.Outcome State Fault Refusal :=
  runAs .ctl s (s.settle (answerMove m angle speed accel s))

/-- ENC_STOP m (R186), not for ING to perform (R223; DEDUCED, safe, log entry 5). -/
def execEncStop (m : Motor) (s : State) : Host.Outcome State Fault Refusal :=
  runAs .ctl s (s.setResult (.frame (stopFrame m)))

/-- ENC_ENABLE m, en (R187), not for ING to perform (R223; DEDUCED, safe, log entry 5). -/
def execEncEnable (m : Motor) (enable : Bool) (s : State) : Host.Outcome State Fault Refusal :=
  runAs .ctl s (s.setResult (.frame (enableFrame m enable)))

/-- FRAME_MOVE: a MOVE frame handed to its motor's Transport (R74, R189; DEDUCED, unsafe, log entry 8). -/
def execFrameMove (m : Motor) (dir : Rotation) (speed : Word16) (accel : Byte) (pulses : Word32) (s : State) :
    Host.Outcome State Fault Refusal :=
  runAs .ctl s (send m (moveFrame m dir speed accel pulses) s).done

/-- FRAME_STOP: a STOP frame handed to its motor's Transport (R75, R189; DEDUCED, unsafe, log entry 8). -/
def execFrameStop (m : Motor) (s : State) : Host.Outcome State Fault Refusal :=
  runAs .ctl s (send m (stopFrame m) s).done

/-- FRAME_ENABLE: an EN frame handed to its motor's Transport (R76, R189; DEDUCED, unsafe, log entry 8). -/
def execFrameEnable (m : Motor) (enable : Bool) (s : State) : Host.Outcome State Fault Refusal :=
  runAs .ctl s (send m (enableFrame m enable) s).done

end Sys2Proof.Machine
end

