-- ==== Sys2Proof/Machine/Pid.lean ====
section
/-! DEFINITION. Family AxisPID (spec/43_axis_pid.md): PID_CALC, PID_RESET, PID_SET_PARAMS, PID_GET_PARAMS. -/

namespace Sys2Proof.Machine

/-- The unclamped output of R131 step 4; at the default NUM in the written order (R8). -/
def pidSum (n : NumConfig) (p : PidBank) (e integ deriv : F32) : F32 :=
  fdot3 n p.kp e p.ki integ p.kd deriv

/-- The clamped integral of R131 step 2. -/
def pidInteg (n : NumConfig) (p : PidBank) (e : F32) : F32 := clampSym (fadd n p.integ e) p.imax

/-- The derivative of R131 step 3. -/
def pidDeriv (n : NumConfig) (p : PidBank) (e : F32) : F32 := fsub n e p.last

/-- PID_CALC on a bank (R131) under NUM: the bank after the call and the output, or the refusal. An error that is not finite is
outside the operand's domain (R131, 93_implementation_defined.md U9; DEDUCED, safe, log entry 14). -/
def pidCalc (n : NumConfig) (p : PidBank) (e : F32) : Except RefuseReason (PidBank × F32) :=
  if !isFinite e then .error .pidNan
  else if inDeadzone e p.dz then .ok (p.clear, fzero)
  else
    let integ := pidInteg n p e
    let deriv := pidDeriv n p e
    let u := pidSum n p e integ deriv
    if isNaN u then .error .pidNan
    else .ok ({ p with err := e, integ := integ, deriv := deriv, last := e }, clampSym u p.omax)

/-- PID_CALC on the bank of an axis of the state. -/
def calcAxis (a : Axis) (e : F32) (s : State) : Except RefuseReason State :=
  match pidCalc s.num (s.pid a) e with
  | .ok (b, u) => .ok ((s.setPid a b).setResult (.output u))
  | .error r => .error r

/-- PID_SET_PARAMS on a bank (R134): non-finite gains are refused, everything but the gains is kept. -/
def setGains (a : Axis) (kp ki kd : F32) (s : State) : Except RefuseReason State :=
  if isFinite kp && isFinite ki && isFinite kd then
    .ok (s.setPid a { s.pid a with kp := kp, ki := ki, kd := kd }).done
  else .error .badGain

/-- PID_CALC a, e (R131). -/
def execPidCalc (a : Axis) (e : F32) (s : State) : Host.Outcome State Fault Refusal :=
  runAs .ctl s (s.settle (calcAxis a e s))

/-- PID_RESET a (R133). -/
def execPidReset (a : Axis) (s : State) : Host.Outcome State Fault Refusal :=
  runAs .ctl s (s.setPid a (s.pid a).clear).done

/-- PID_SET_PARAMS a, kp, ki, kd (R134). -/
def execPidSetParams (a : Axis) (kp ki kd : F32) (s : State) : Host.Outcome State Fault Refusal :=
  runAs .ctl s (s.settle (setGains a kp ki kd s))

/-- PID_GET_PARAMS a (R135): answers the gains and writes no register. -/
def execPidGetParams (a : Axis) (s : State) : Host.Outcome State Fault Refusal :=
  runAs .ctl s (s.setResult (.gains (s.pid a).kp (s.pid a).ki (s.pid a).kd))

end Sys2Proof.Machine
end

