-- ==== Sys2Proof/Machine/Tracking.lean ====
section
/-! DEFINITION. Family TrackingStateMachine (spec/44_tracking.md): SM_TICK, SM_ENABLE, SM_DISABLE. -/

namespace Sys2Proof.Machine

/-- The Stop frames for both motors (R156, R161, R200). -/
def stopBoth (s : State) : State := sendBoth (stopFrame .horizontal) (stopFrame .vertical) s

/-- The feedback record of a tick (R81, R154). -/
def tickRecord (smp : Sample) (outH outV : F32) (mode : TrackingMode) : FeedbackRecord :=
  { x := smp.x.toInt, y := smp.y.toInt, dx := centerError smp.x, dy := centerError smp.y,
    outH := outH, outV := outV, mode := mode }

/-- R158, R159: a tick that took no valid sample. -/
def lossTick (s : State) : State :=
  emitLostIfDue (s.setSm { s.sm with loss := s.sm.loss + 1, mode := .idle, dwell := 0#8 })

/-- R155, R156: a valid tick with both errors inside their deadzones. -/
def dwellTick (smp : Sample) (outH outV : F32) (s : State) : State :=
  let dwell := s.sm.dwell + 1
  if dwellLocks dwell then
    (emitFeedback (tickRecord smp outH outV .locked) (stopBoth s)).setSm { s.sm with mode := .locked, dwell := 0#8 }
  else s.setSm { s.sm with dwell := dwell }

/-- R157: a valid tick with an error outside its deadzone. Where both encodings are refused the horizontal one's reason is answered (DEDUCED,
safe, log entry 31). -/
def moveTick (outH outV : F32) (s : State) : Except RefuseReason State :=
  match encMove s.num s.dirPos .horizontal (fmul s.num outH Config.scale) Config.speedDefault Config.accelDefault,
      encMove s.num s.dirPos .vertical (fmul s.num outV Config.scale) Config.speedDefault Config.accelDefault with
  | .ok fH, .ok fV => .ok (sendBoth fH fV (s.setSm { s.sm with dwell := 0#8 }))
  | .error r, _ => .error r
  | .ok _, .error r => .error r

/-- R153, R154: the registers of a valid tick after regulation, its feedback record emitted. -/
def regulated (smp : Sample) (bH bV : PidBank) (outH outV : F32) (s : State) : State :=
  emitFeedback (tickRecord smp outH outV .tracking)
    (((s.setPid .horizontal bH).setPid .vertical bV).setSm { s.sm with loss := 0#32, mode := .tracking })

/-- R153 to R157: a tick that took the valid sample `smp`. Where both PID_CALC are refused the horizontal one's reason is answered (DEDUCED,
safe, log entry 31). -/
def trackTick (smp : Sample) (s : State) : Except RefuseReason State :=
  let dx := centerError smp.x
  let dy := centerError smp.y
  match pidCalc s.num s.pidH (f32 dx), pidCalc s.num s.pidV (f32 dy) with
  | .ok (bH, outH), .ok (bV, outV) =>
    let t := regulated smp bH bV outH outV s
    if bothInDeadzone dx dy s.pidH.dz s.pidV.dz then .ok (dwellTick smp outH outV t)
    else moveTick outH outV t
  | .error r, _ => .error r
  | .ok _, .error r => .error r

/-- The tick of R150. -/
def tick (s : State) : Except RefuseReason State :=
  if s.sm.en then
    match taken s with
    | some smp => if smp.valid then trackTick smp (afterTake s) else .ok (lossTick (afterTake s))
    | none => .ok (lossTick s)
  else .ok s

/-- SM_TICK (R150): a tick of CTL is counted (R205), a disabled or refused one too (DEDUCED, unsafe, log entry 12), and a refusal inside it
refuses the whole tick. An SM_TICK that ING offers is refused with wrong_agent and not counted (DESIGN CHOICE, unsafe, log entry 33). -/
def execSmTick (s : State) : Host.Outcome State Fault Refusal :=
  runAs .ctl s (s.countTick.settle ((tick s.countTick).map State.done))

/-- SM_ENABLE (R160, R242). -/
def execSmEnable (s : State) : Host.Outcome State Fault Refusal :=
  runAs .ctl s (((s.setSm { s.sm with en := true, mode := .idle, dwell := 0#8 }).setPid .horizontal s.pidH.clear).setPid
    .vertical s.pidV.clear).done

/-- SM_DISABLE (R161): both Stops are sent, also when already disabled. -/
def execSmDisable (s : State) : Host.Outcome State Fault Refusal :=
  runAs .ctl s (stopBoth (s.setSm { s.sm with en := false, mode := .idle })).done

end Sys2Proof.Machine
end

