-- ==== Sys2Proof/Machine/HostSurface.lean ====
section
/-! DEFINITION. Family collaborator surface (spec/46_host_surface.md): HOST_STOP_ALL, HOST_MOVE, HOST_MOTOR_ENABLE, HOST_SET_FLAG, and
the telemetry line TLM_DATA (R80, R205). -/

namespace Sys2Proof.Machine

/-- HOST_STOP_ALL (R200). -/
def execHostStopAll (s : State) : Host.Outcome State Fault Refusal :=
  runAs .ctl s (stopBoth s).done

/-- The direct move of R201: the frame ENC_MOVE encodes is sent, or its refusal refuses the operation. -/
def directMove (m : Motor) (angle : F32) (speed : Word16) (accel : Byte) (s : State) : Except RefuseReason State :=
  match encMove s.num s.dirPos m angle speed accel with
  | .ok f => .ok (send m f s).done
  | .error r => .error r

/-- HOST_MOVE m, angle, speed, accel (R201); "timed" has no meaning in any source and is not modelled. -/
def execHostMove (m : Motor) (angle : F32) (speed : Word16) (accel : Byte) (s : State) : Host.Outcome State Fault Refusal :=
  runAs .ctl s (s.settle (directMove m angle speed accel s))

/-- HOST_MOTOR_ENABLE m, en (R202). -/
def execHostMotorEnable (m : Motor) (enable : Bool) (s : State) : Host.Outcome State Fault Refusal :=
  runAs .ctl s (send m (enableFrame m enable) s).done

/-- HOST_SET_FLAG f, v (R203). -/
def execHostSetFlag (f : HostFlag) (value : Bool) (s : State) : Host.Outcome State Fault Refusal :=
  runAs .ctl s (s.setHost (s.host.write f value)).done

/-- Telemetry's step (R205): the line joins the downlink when some emitted record may be sent as it, and is held back by the gate or
the rate limit otherwise. Where several records may, which of them it is is drawn (U4; free, safe, log entry 28). -/
def sendTelemetry (t : TelemetryText) (m : TrackingMode) (s : State) : State :=
  let records := s.fb.filter (telemetryEligible s.tlm t m)
  match records[Config.telemetryPick s.tlm.length % records.length]? with
  | some e => s.pushTlm e
  | none => s

/-- TLM_DATA: the telemetry collaborator offers one line of format TLM (R80, R205; DEDUCED, safe, log entry 9), in the control domain and
not for ING to perform (R223; DEDUCED, safe, log entry 5). -/
def execTlmData (text : TelemetryText) (mode : TrackingMode) (s : State) : Host.Outcome State Fault Refusal :=
  runAs .ctl s (sendTelemetry text mode s).done

end Sys2Proof.Machine
end

