-- ==== Sys2Proof/Machine/Ingest.lean ====
section
/-! DEFINITION. Family SampleDecoder (spec/41_sample_decoder.md): DEC_BYTE, and the five uplink byte classes of R71, each the
decoder's transition on a byte of that class (DEDUCED, safe, log entry 7). All are performed by ING. -/

namespace Sys2Proof.Machine

/-- ACCEPT (R101, R102): append below LINE_MAX, else drop the byte and the line. -/
def accept (b : Byte) (l : LineRegs) : LineRegs :=
  if l.li.val < Config.lineMax then { lb := l.lb.set l.li.val b, li := l.li + 1 } else { l with li := 0 }

/-- TERMINATE (R104, R105): a non-empty line is parsed and published; LI becomes 0 either way. -/
def terminate (s : State) : State :=
  if s.line.li = 0 then s
  else (publish (parse s.line.text) s).setLine { s.line with li := 0 }

/-- The decoder's transition on one byte (R100). -/
def consumeByte (b : Byte) (s : State) : State :=
  if isTerminator b then terminate s
  else if isAccepted b then s.setLine (accept b s.line)
  else s

/-- DEC_BYTE b (R100). -/
def execDecByte (b : Byte) (s : State) : Host.Outcome State Fault Refusal :=
  runAs .ing s (consumeByte b s).done

/-- UL_TERM_LF: the uplink byte 0x0A (R71, R104). -/
def execUlTermLf (s : State) : Host.Outcome State Fault Refusal :=
  runAs .ing s (consumeByte Config.chLf s).done

/-- UL_TERM_CR: the uplink byte 0x0D (R71, R104). -/
def execUlTermCr (s : State) : Host.Outcome State Fault Refusal :=
  runAs .ing s (consumeByte Config.chCr s).done

/-- UL_DIGIT d: the uplink byte 0x30 + d (R71, R101). -/
def execUlDigit (d : BitVec 4) (s : State) : Host.Outcome State Fault Refusal :=
  runAs .ing s (consumeByte (0x3#4 ++ d) s).done

/-- UL_COMMA: the uplink byte 0x2C (R71, R101). -/
def execUlComma (s : State) : Host.Outcome State Fault Refusal :=
  runAs .ing s (consumeByte Config.chComma s).done

/-- UL_OTHER b: any other uplink byte (R71, R103). -/
def execUlOther (b : Byte) (s : State) : Host.Outcome State Fault Refusal :=
  runAs .ing s (consumeByte b s).done

end Sys2Proof.Machine
end

