-- ==== Sys2Proof/Machine/Mailbox.lean ====
section
/-! DEFINITION. Family SampleMailbox (spec/42_mailbox.md): the internal operations MB_PUBLISH (ING only) and MB_TAKE (CTL only). -/

namespace Sys2Proof.Machine

/-- MB_PUBLISH x, y, valid (R120), for every int16 coordinate (DEDUCED, unsafe, log entry 26); performed by CTL it is refused (R60). -/
def execMbPublish (x y : Word16) (valid : Bool) (s : State) : Host.Outcome State Fault Refusal :=
  runAs .ing s (publish { x := x, y := y, valid := valid } s).done

/-- MB_TAKE (R121): answers the pending sample or none; performed by ING it is refused (R60). -/
def execMbTake (s : State) : Host.Outcome State Fault Refusal :=
  runAs .ctl s ((afterTake s).setResult (.sample (taken s)))

end Sys2Proof.Machine
end

