-- ==== Sys2Proof/Machine/Dispatch.lean ====
section
/-! DEFINITION. exec: one arm per constructor of Instr, each one call of that operation's meaning. -/

namespace Sys2Proof.Machine

def exec (i : Instr) (s : State) : Host.Outcome State Fault Refusal :=
  match i with
  | .decByte b => Sys2Proof.Machine.execDecByte b s
  | .mbPublish x y valid => Sys2Proof.Machine.execMbPublish x y valid s
  | .mbTake => Sys2Proof.Machine.execMbTake s
  | .pidCalc a e => Sys2Proof.Machine.execPidCalc a e s
  | .pidReset a => Sys2Proof.Machine.execPidReset a s
  | .pidSetParams a kp ki kd => Sys2Proof.Machine.execPidSetParams a kp ki kd s
  | .pidGetParams a => Sys2Proof.Machine.execPidGetParams a s
  | .smTick => Sys2Proof.Machine.execSmTick s
  | .smEnable => Sys2Proof.Machine.execSmEnable s
  | .smDisable => Sys2Proof.Machine.execSmDisable s
  | .encMove m angle speed accel => Sys2Proof.Machine.execEncMove m angle speed accel s
  | .encStop m => Sys2Proof.Machine.execEncStop m s
  | .encEnable m enable => Sys2Proof.Machine.execEncEnable m enable s
  | .hostStopAll => Sys2Proof.Machine.execHostStopAll s
  | .hostMove m angle speed accel => Sys2Proof.Machine.execHostMove m angle speed accel s
  | .hostMotorEnable m enable => Sys2Proof.Machine.execHostMotorEnable m enable s
  | .hostSetFlag f value => Sys2Proof.Machine.execHostSetFlag f value s
  | .frameMove m dir speed accel pulses => Sys2Proof.Machine.execFrameMove m dir speed accel pulses s
  | .frameStop m => Sys2Proof.Machine.execFrameStop m s
  | .frameEnable m enable => Sys2Proof.Machine.execFrameEnable m enable s
  | .ulTermLf => Sys2Proof.Machine.execUlTermLf s
  | .ulTermCr => Sys2Proof.Machine.execUlTermCr s
  | .ulDigit d => Sys2Proof.Machine.execUlDigit d s
  | .ulComma => Sys2Proof.Machine.execUlComma s
  | .ulOther b => Sys2Proof.Machine.execUlOther b s
  | .tlmData text mode => Sys2Proof.Machine.execTlmData text mode s

end Sys2Proof.Machine
end

