-- ==== Sys2Proof/Machine/Step.lean ====
section
/-! DEFINITION. One step: the next operation the environment offers is decoded and performed by its agent (R15, R22). -/

namespace Sys2Proof.Machine

/-- One step. With nothing offered the block keeps all its state (R22, R228; DESIGN CHOICE, safe, log entry 3); words that
spell no operation are refused or have no behaviour (R83, R79); any other offer is its operation's one atomic transition (R15). -/
def step (s : State) : Host.Outcome State Fault Refusal :=
  match nextOffer s with
  | none => .next s
  | some (words, t) =>
    match decode words with
    | .ok i => exec i t
    | .error _ => .next (unspelled words t)

/-- The state with a table row's operation offered next, by the agent the table names. -/
def State.withFetchWord (s : State) (nbits w : Nat) : State :=
  { s with inbox := offerOfTable nbits w :: s.inbox }

end Sys2Proof.Machine
end

