-- ==== Sys2Proof/Safety.lean ====
section
/-! DEFINITION. What claims about the block speak of: a run that reached no refusal, the integrated block, and the invariants the
spec states of each component (spec/10_state.md R24, R25, R27, R30; spec/46_host_surface.md R205). -/

namespace Sys2Proof.Machine

/-- No operation so far was refused (R217). The spec gives a refused input no meaning, so a claim about the hardware is a
claim about states in which this holds. -/
def Unrefused (s : State) : Prop := s.refused = false

/-- The operation offered next is not an internal one (R82, R223): the integrated block, where Publish, Take, PID_CALC, PID_RESET and
the Send of a frame occur only inside the operations that contain them. -/
def Integrated (s : State) : Prop :=
  ∀ o rest i, s.inbox = o :: rest → decode o.words = .ok i → isInternal i = false

/-- R24: every accumulated byte is a digit or a comma. -/
def LineInv (s : State) : Prop := ∀ b ∈ s.line.text, isAccepted b = true

/-- A coordinate lies in [0, 240] (R25). -/
def InFrame (c : Word16) : Prop := c.toNat ≤ 240

/-- R25, R81: the mailbox's coordinates lie in [0, 240] and an invalid sample is (0, 0); every feedback record holds coordinates in
[0, 240] and their errors against 120. -/
def SampleInv (s : State) : Prop :=
  InFrame s.mb.x ∧ InFrame s.mb.y ∧ (s.mb.valid = false → s.mb.x = 0 ∧ s.mb.y = 0) ∧
    ∀ e ∈ s.fb, 0 ≤ e.record.x ∧ e.record.x ≤ 240 ∧ 0 ≤ e.record.y ∧ e.record.y ≤ 240 ∧
      e.record.dx = e.record.x - 120 ∧ e.record.dy = e.record.y - 120

/-- A sample that an MB_PUBLISH offered next carries lies in the frame; in the integrated block none is offered, and the decoder's
are clamped (R107, R122). -/
def PublishesInFrame (s : State) : Prop :=
  ∀ o rest x y v, s.inbox = o :: rest → decode o.words = .ok (.mbPublish x y v) →
    InFrame x ∧ InFrame y ∧ (v = false → x = 0 ∧ y = 0)

/-- R27, R130: finite gains, finite limits not below zero, a finite last error, and |INTEG| at most IMAX. -/
def BankInv (p : PidBank) : Prop :=
  isFinite p.kp = true ∧ isFinite p.ki = true ∧ isFinite p.kd = true ∧
    isFinite p.imax = true ∧ isFinite p.omax = true ∧ 0 ≤ fvalue p.imax ∧ 0 ≤ fvalue p.omax ∧
    isFinite p.last = true ∧ isFinite p.integ = true ∧ |fvalue p.integ| ≤ fvalue p.imax

/-- R27 for both banks. -/
def PidInv (s : State) : Prop := BankInv s.pidH ∧ BankInv s.pidV

/-- R30: the dwell count is below 10, 0 when Locked; a disabled block is Idle; the loss count is 0 in the modes a valid tick sets. -/
def TrackInv (s : State) : Prop :=
  s.sm.dwell.toNat ≤ 9 ∧ (s.sm.mode = .locked → s.sm.dwell = 0) ∧ (s.sm.en = false → s.sm.mode = .idle) ∧
    (s.sm.mode ≠ .idle → s.sm.loss = 0)

/-- R204, R205: feedback entries carry tick indices that never fall and none from the future; the telemetry lines are a
subsequence of the entries emitted with HOST.FEEDBACK_EN = 1, their ticks at least 10 apart. -/
def TelemetryInv (s : State) : Prop :=
  s.fb.Pairwise (fun a b => a.tick ≤ b.tick) ∧ (∀ e ∈ s.fb, e.tick ≤ s.tickIndex) ∧
    s.tlm.Sublist (s.fb.filter (·.feedbackEn)) ∧ s.tlm.Pairwise (fun a b => a.tick + 10 ≤ b.tick)

/-- R79: a frame the block may emit to a motor. Its id is the motor's (R188), and its codes, its dir or enable byte and its constants are
those R74 to R76 show and no others. -/
def Emitted (m : Motor) (f : Frame) : Prop :=
  let id := if m = .vertical then 0x01#8 else 0x02#8
  (∃ dir ∈ [0x00#8, 0x01#8], ∃ sh sl accel p3 p2 p1 p0,
    f = [id, 0xFD#8, dir, sh, sl, accel, p3, p2, p1, p0, 0x00#8, 0x00#8, 0x6B#8]) ∨
  f = [id, 0xFE#8, 0x98#8, 0x00#8, 0x6B#8] ∨
  ∃ enable ∈ [0x00#8, 0x01#8], f = [id, 0xF3#8, 0xAB#8, enable, 0x00#8, 0x6B#8]

/-- R79, R157: the order of issue names each motor as often as frames were issued to it, and each of them is one the block may emit. -/
def SendInv (s : State) : Prop :=
  ∀ m, (issueOrder s).count m = (s.out m).length ∧ ∀ f ∈ s.out m, Emitted m f

/-- R190: a frame whose pulse magnitude, where it carries one, is at most 2^31 - 1 (the top bit of byte 6 is clear). -/
def PulsesInRange (f : Frame) : Prop := f.length = 13 → ∀ b, f[6]? = some b → b.toNat < 0x80

end Sys2Proof.Machine
end

