-- ==== Sys2Proof/Certificates/Slice0/Obligations.lean ====
section
/-! DEFINITION. The statements for the provers, from the numbered rules of spec/. A statement of what an operation does writes the
next state out as a record update of the state before: whatever the update does not name is
unchanged (the frame). -/

open Sys2Proof Sys2Proof.Machine

namespace Sys2Proof.Statements

/-- The constructors that hand the decoder one uplink byte: DEC_BYTE of any byte (R100), and the five classes of R71. -/
def ConsumesByte : Instr → Byte → Prop
  | .decByte b, c => c = b
  | .ulTermLf, c => c = 0x0A#8
  | .ulTermCr, c => c = 0x0D#8
  | .ulDigit d, c => d.toNat ≤ 9 ∧ c.toNat = 0x30 + d.toNat
  | .ulComma, c => c = 0x2C#8
  | .ulOther b, c => isOtherByte b = true ∧ c = b
  | _, _ => False

/-- The words of one uplink byte: the operation word 0x01bb (R82) or the byte itself (format UL). -/
def SpellsByte (b : Byte) (ws : Words) : Prop := ws = .op (0x01#8 ++ b) [] ∨ ws = .uplink b

/-- A digit or a comma (R71). -/
def DigitOrComma (b : Byte) : Bool := (decide (0x30 ≤ b.toNat) && decide (b.toNat ≤ 0x39)) || b == 0x2C#8

/-- The value of a run of digits (R73): the sum of (d - 0x30) times the powers of ten. -/
def digitsValue (ds : List Byte) : Nat := Nat.ofDigits 10 (ds.reverse.map fun d => d.toNat - 0x30)

/-- The value of a field (R73): that of its leading digits. -/
def fieldValue (f : List Byte) : Nat := digitsValue (f.takeWhile fun c => decide (0x30 ≤ c.toNat) && decide (c.toNat ≤ 0x39))

/-- The sample of two field values (R107). -/
def sampleOf (x y : Nat) : Sample :=
  if x = 0 ∧ y = 0 then ⟨0, 0, false⟩ else ⟨BitVec.ofNat 16 (min x 240), BitVec.ofNat 16 (min y 240), true⟩

/-- One row of R82: OPC, the selectors listed (none: any), the widths of its payload words. -/
structure OpRow where
  opc : Nat
  sels : Option (List Nat)
  widths : List Nat

/-- The table of R82. -/
def opRows : List OpRow :=
  [⟨0x01, none, []⟩, ⟨0x02, some [0], [16, 16, 1]⟩, ⟨0x03, some [0], []⟩, ⟨0x10, some [0, 1], [32]⟩] ++
  [⟨0x11, some [0, 1], []⟩, ⟨0x12, some [0, 1], [32, 32, 32]⟩, ⟨0x13, some [0, 1], []⟩] ++
  [⟨0x20, some [0], []⟩, ⟨0x21, some [0], []⟩, ⟨0x22, some [0], []⟩] ++
  [⟨0x30, some [1, 2], [32, 16, 8]⟩, ⟨0x31, some [1, 2], []⟩, ⟨0x32, some [1, 2], [1]⟩, ⟨0x40, some [0], []⟩] ++
  [⟨0x41, some [1, 2], [32, 16, 8]⟩, ⟨0x42, some [1, 2], [1]⟩, ⟨0x43, some [0, 1], [1]⟩]

/-- The words a row of R82 spells: its OPC, one of its selectors, as many payload words as it lists, each within its width. -/
def SpelledBy (w : Word16) (p : List Word32) (r : OpRow) : Prop :=
  w.toNat / 256 = r.opc ∧ (∀ l, r.sels = some l → w.toNat % 256 ∈ l) ∧
    List.Forall₂ (fun (x : Word32) n => x.toNat < 2 ^ n) p r.widths

/-- The state a refused operation leaves (R14, R217): the mark set, the answer naming the reason, nothing else changed. -/
def refusedState (s : State) (r : RefuseReason) : State := { s with refused := true, result := .refused r }

/-- The state with one bank replaced and the answer given: the banks are independent (R26). -/
def withBank (s : State) (a : Axis) (p : PidBank) (v : Result) : State :=
  { s with
    pidH := if a = .horizontal then p else s.pidH
    pidV := if a = .vertical then p else s.pidV
    result := v }

/-- A bank with its transient registers +0.0 (R133). -/
def cleared (p : PidBank) : PidBank := { p with err := 0#32, last := 0#32, integ := 0#32, deriv := 0#32 }

/-- v clamped to [-lim, lim] as R131 writes it. -/
def clamped (v lim : F32) : F32 := if fgt v lim then lim else if flt v (fneg lim) then fneg lim else v

/-- The id byte of a motor (R188). -/
def idByte (m : Motor) : Byte := if m = .vertical then 0x01#8 else 0x02#8

/-- The bytes of a STOP frame (R75). -/
def stopBytes (m : Motor) : Frame := [idByte m, 0xFE#8, 0x98#8, 0x00#8, 0x6B#8]

/-- The bytes of an EN frame (R76). -/
def enableBytes (m : Motor) (en : Bool) : Frame :=
  [idByte m, 0xF3#8, 0xAB#8, if en then 0x01#8 else 0x00#8, 0x00#8, 0x6B#8]

/-- The bytes of a MOVE frame (R74), from the numbers it carries. -/
def moveBytes (m : Motor) (dir : Byte) (speed : Word16) (accel : Byte) (mag : Nat) : Frame :=
  [idByte m, 0xFD#8, dir, BitVec.ofNat 8 (speed.toNat / 256), BitVec.ofNat 8 speed.toNat, accel,
    BitVec.ofNat 8 (mag / 2 ^ 24), BitVec.ofNat 8 (mag / 2 ^ 16), BitVec.ofNat 8 (mag / 2 ^ 8), BitVec.ofNat 8 mag,
    0x00#8, 0x00#8, 0x6B#8]

/-- The byte of a rotation (R74). -/
def dirByte (r : Rotation) : Byte := if r = .cw then 0x01#8 else 0x00#8

/-- The pulse count of R182: product first, quotient second, rounded half away from zero. -/
def pulseCount (n : NumConfig) (angle : F32) : Int := roundHalfAway (fdiv n (fmul n angle 0x45480000#32) 0x43B40000#32)

/-- What R8 says of a rounded operation whose exact result is x / d units of 2^-149: it answers the infinity of the exact result's sign
from half a unit in the last place above the largest finite value on; below that the finite value no other is nearer than, its pattern
even where another is as near; and it has the sign of an exact result that is not zero. -/
def RoundsTo (r : F32) (x d : Int) : Prop :=
  (isFinite r = true ↔ |x| < (2 ^ 25 - 1) * 2 ^ 252 * |d|) ∧
  (isFinite r = false → r = if x * d < 0 then 0xFF800000#32 else 0x7F800000#32) ∧
  (x ≠ 0 → fsign r = decide (x * d < 0)) ∧
  (isFinite r = true → ∀ c : F32, isFinite c = true →
    |fvalue r * d - x| ≤ |fvalue c * d - x| ∧
    (|fvalue c * d - x| = |fvalue r * d - x| → fvalue c ≠ fvalue r → r.toNat % 2 = 0))

/-- The texts of a record's telemetry line, field by field (R80, R81). -/
def textsOf (r : FeedbackRecord) : TelemetryText :=
  ⟨Config.intText .tx r.x, Config.intText .ty r.y, Config.intText .dx r.dx, Config.intText .dy r.dy,
    Config.realText .pidH r.outH, Config.realText .pidV r.outV⟩

/-- The bytes of a telemetry line (R80): DATA, six texts and the state's digit, a comma before each, then CR and LF. That the state is
written as one ASCII digit is the model's choice (log entry 34). -/
def lineBytes (t : TelemetryText) (m : TrackingMode) : List Byte :=
  [0x44#8, 0x41#8, 0x54#8, 0x41#8] ++ [0x2C#8] ++ t.tx ++ [0x2C#8] ++ t.ty ++ [0x2C#8] ++ t.dx ++ [0x2C#8] ++ t.dy ++ [0x2C#8] ++
    t.pidH ++ [0x2C#8] ++ t.pidV ++ [0x2C#8, if m = .idle then 0x30#8 else if m = .tracking then 0x31#8 else 0x32#8, 0x0D#8, 0x0A#8]

/-- A text that may be a field of a telemetry line: ASCII (R53), not empty, with no comma, CR or LF. -/
def FieldText (t : List Byte) : Prop :=
  t ≠ [] ∧ ∀ b ∈ t, b.toNat < 0x80 ∧ b ≠ 0x2C#8 ∧ b ≠ 0x0D#8 ∧ b ≠ 0x0A#8

/-- Six texts that may be the fields of a telemetry line. -/
def FieldTexts (t : TelemetryText) : Prop :=
  FieldText t.tx ∧ FieldText t.ty ∧ FieldText t.dx ∧ FieldText t.dy ∧ FieldText t.pidH ∧ FieldText t.pidV

/-- The state with a frame issued to one motor (R189). -/
def withSent (s : State) (m : Motor) (f : Frame) : State :=
  { s with
    out1 := if m = .vertical then s.out1 ++ [f] else s.out1
    out2 := if m = .horizontal then s.out2 ++ [f] else s.out2
    sendLog := s.sendLog ++ [.one m]
    result := .nothing }

/-- The state with both Stop frames issued, in an order left open (R150). -/
def withBothStopped (s : State) : State :=
  { s with
    out1 := s.out1 ++ [stopBytes .vertical]
    out2 := s.out2 ++ [stopBytes .horizontal]
    sendLog := s.sendLog ++ [.both]
    result := .nothing }

/-- dx of R153 from a coordinate. -/
def errorOf (c : Word16) : Int := c.toInt - 120

/-- The state of a counted tick that took the pending sample. -/
def tickTaken (s : State) : State := { s with tickIndex := s.tickIndex + 1, mb := { s.mb with ready := false }, result := .nothing }

/-- The feedback entry of this tick (R154, R204). -/
def entryOf (s : State) (outH outV : F32) (mode : TrackingMode) : FeedbackEntry :=
  { record := ⟨s.mb.x.toInt, s.mb.y.toInt, errorOf s.mb.x, errorOf s.mb.y, outH, outV, mode⟩
    tick := s.tickIndex + 1
    feedbackEn := s.host.feedbackEn }

/-- An enabled tick of CTL that finds a valid sample pending. -/
def ValidTick (s : State) : Prop := s.actor = .ctl ∧ s.sm.en = true ∧ s.mb.ready = true ∧ s.mb.valid = true

/-- Both errors lie inside their deadzones (R155). -/
def Inside (s : State) : Prop :=
  (errorOf s.mb.x).natAbs < s.pidH.dz.toNat ∧ (errorOf s.mb.y).natAbs < s.pidV.dz.toNat

/-- A valid sample inside both deadzones of a state. -/
def InsideSample (s : State) (smp : Sample) : Prop :=
  smp.valid = true ∧ (errorOf smp.x).natAbs < s.pidH.dz.toNat ∧ (errorOf smp.y).natAbs < s.pidV.dz.toNat

/-- The two offers of one published sample and one tick. -/
def publishThenTick (smp : Sample) : List Offer :=
  [⟨.ing, .op 0x0200#16 [smp.x.setWidth 32, smp.y.setWidth 32, if smp.valid then 1#32 else 0#32]⟩, ⟨.ctl, .op 0x2000#16 []⟩]

end Sys2Proof.Statements

open Sys2Proof.Statements

/-! ### Encodings -/

/-- R71, R74 to R76, R80, R82: decoding the encoding of a well-formed operation gives it back, with every operand value.
That a telemetry line's state field is one ASCII digit is the model's choice (log entry 34). -/
def Obligations.DecodeOfEncodeIsTheOperation : Prop :=
  ∀ i : Instr, i.wf = true → decode (encode i) = .ok i

/-- R83 ("No operation word is a hint or a no-op alias"): what decodes is well-formed and is spelled by those words alone.
That a telemetry line's state field has one spelling, an ASCII digit, is the model's choice (log entry 34). -/
def Obligations.EncodeOfDecodeIsTheWords : Prop :=
  ∀ (ws : Words) (i : Instr), decode ws = .ok i → i.wf = true ∧ encode i = ws

/-- R82, R83, R84: an operation word with its payload spells an operation exactly when a row of R82's table lists it (a payload word in excess:
log entry 11). -/
def Obligations.OperationWordsAreTheTablesRows : Prop :=
  ∀ (w : Word16) (p : List Word32), (∃ i, decode (.op w p) = .ok i) ↔ ∃ r ∈ opRows, SpelledBy w p r

/-- Words written out from the spec's encodings decode to the operations they stand for, at least one of every family. -/
def Obligations.WrittenOutWordsDecode : Prop :=
  decode (.op 0x0131#16 []) = .ok (.decByte 0x31#8) ∧
  decode (.op 0x0200#16 [113#32, 114#32, 1#32]) = .ok (.mbPublish 113#16 114#16 true) ∧
  decode (.op 0x1001#16 [0xC0E00000#32]) = .ok (.pidCalc .vertical 0xC0E00000#32) ∧
  decode (.op 0x2000#16 []) = .ok .smTick ∧
  decode (.op 0x3002#16 [0x41100000#32, 0x04B0#32, 0x05#32]) = .ok (.encMove .horizontal 0x41100000#32 0x04B0#16 0x05#8) ∧
  decode (.op 0x4301#16 [1#32]) = .ok (.hostSetFlag .debugEn true) ∧
  decode (.send [0x02#8, 0xFD#8, 0x01#8, 0x04#8, 0xB0#8, 0x05#8, 0x00#8, 0x00#8, 0x0C#8, 0x80#8, 0x00#8, 0x00#8, 0x6B#8]) =
    .ok (.frameMove .horizontal .cw 0x04B0#16 0x05#8 3200#32)

/-- R71: every uplink byte is decoded to exactly one class, the table's. -/
def Obligations.UplinkBytesFallInTheirClass : Prop :=
  ∀ b : Byte,
    (b = 0x0A#8 → decode (.uplink b) = .ok .ulTermLf) ∧
    (b = 0x0D#8 → decode (.uplink b) = .ok .ulTermCr) ∧
    (∀ d : BitVec 4, d.toNat ≤ 9 → b.toNat = 0x30 + d.toNat → decode (.uplink b) = .ok (.ulDigit d)) ∧
    (b = 0x2C#8 → decode (.uplink b) = .ok .ulComma) ∧
    (b ≠ 0x0A#8 → b ≠ 0x0D#8 → b ≠ 0x2C#8 → (b.toNat < 0x30 ∨ 0x39 < b.toNat) → decode (.uplink b) = .ok (.ulOther b))

/-! ### The step -/

/-- R15, R22: a step performs the operation offered next, by the agent that offers it, from the state without that offer; with
nothing offered it keeps the whole state (the model's choice, log entry 3). -/
def Obligations.StepPerformsTheOfferedOperation : Prop :=
  ∀ s : State,
    (s.inbox = [] → step s = .next s) ∧
    (∀ (o : Offer) (rest : List Offer) (i : Instr), s.inbox = o :: rest → decode o.words = .ok i →
      step s = exec i { s with actor := o.agent, inbox := rest })

/-- R83: an operation word that spells no operation is refused with illegal_op and changes no state. That a payload word in excess makes
such words is the model's reading of R84 (log entry 11). R79: bytes that are no frame the block emits have no behaviour, and neither
have bytes that are no telemetry line (the model's reading, log entry 29): nothing is performed. That a line's state field is one ASCII
digit, so that another spelling of it is no line, is the model's choice (log entry 34). -/
def Obligations.IllegalWordsAreRefused : Prop :=
  (∀ (s : State) (a : Agent) (w : Word16) (p : List Word32) (rest : List Offer),
    s.inbox = ⟨a, .op w p⟩ :: rest → (∀ r ∈ opRows, ¬ SpelledBy w p r) →
    step s = .next (refusedState { s with actor := a, inbox := rest } .illegalOp)) ∧
  (∀ (s : State) (a : Agent) (bytes : List Byte) (rest : List Offer),
    s.inbox = ⟨a, .send bytes⟩ :: rest → (∀ m, ¬ Emitted m bytes) → step s = .next { s with actor := a, inbox := rest }) ∧
  (∀ (s : State) (a : Agent) (bytes : List Byte) (rest : List Offer),
    s.inbox = ⟨a, .telemetry bytes⟩ :: rest → (∀ t m, FieldTexts t → bytes ≠ lineBytes t m) →
    step s = .next { s with actor := a, inbox := rest })

/-- No state stops the block: every step answers a next state. R15, R215: no operation ends in a fault. That `refuse(reason)`, which R15
lists as an outcome of its own, is a next state with the mark REFUSED set (R14, R217) is the model's reading (log entry 1); that a step with
nothing offered answers one is its choice (log entry 3), and so is that bytes which spell nothing are passed over (log entry 29). -/
def Obligations.EveryStepAnswersANextState : Prop :=
  ∀ s : State, ∃ t, step s = .next t

/-! ### SampleDecoder -/

/-- R101, R102: a digit or a comma is appended below 31 bytes, and at 31 it empties the line and is dropped. -/
def Obligations.AcceptedByteIsAppendedOrOverflows : Prop :=
  ∀ (i : Instr) (b : Byte) (s : State), ConsumesByte i b → s.actor = .ing → DigitOrComma b = true →
    (s.line.li.val < 31 → ∃ line : LineRegs, line.li.val = s.line.li.val + 1 ∧
      (∀ j : Fin 32, line.lb[j] = if j = s.line.li then b else s.line.lb[j]) ∧
      exec i s = .next { s with line := line, result := .nothing }) ∧
    (s.line.li.val = 31 → exec i s = .next { s with line := { s.line with li := 0 }, result := .nothing })

/-- R103: a byte of class OTHER changes no register. -/
def Obligations.OtherByteIsIgnored : Prop :=
  ∀ (i : Instr) (b : Byte) (s : State), ConsumesByte i b → s.actor = .ing → DigitOrComma b = false → b ≠ 0x0A#8 → b ≠ 0x0D#8 →
    exec i s = .next { s with result := .nothing }

/-- R104, R105: a terminator publishes the parse of a non-empty line and empties it; on an empty line it changes nothing. -/
def Obligations.TerminatorPublishesTheLine : Prop :=
  ∀ (i : Instr) (b : Byte) (s : State), ConsumesByte i b → s.actor = .ing → (b = 0x0A#8 ∨ b = 0x0D#8) →
    (s.line.li ≠ 0 → exec i s = .next { s with
      mb := { x := (parse (s.line.lb.toList.take s.line.li.val)).x, y := (parse (s.line.lb.toList.take s.line.li.val)).y,
              valid := (parse (s.line.lb.toList.take s.line.li.val)).valid, ready := true }
      line := { s.line with li := 0 }
      result := .nothing }) ∧
    (s.line.li = 0 → exec i s = .next { s with result := .nothing })

/-- R73, R106, R107, R108: the text is split at its first comma, each field is the decimal value of its leading digits, (0, 0) is the
invalid sentinel and anything else is clamped to 240. -/
def Obligations.ParseSplitsConvertsAndClamps : Prop :=
  (∀ t : List Byte, (0x2C#8 ∉ t) → parse t = sampleOf (fieldValue t) 0) ∧
  (∀ f1 f2 : List Byte, (0x2C#8 ∉ f1) → parse (f1 ++ 0x2C#8 :: f2) = sampleOf (fieldValue f1) (fieldValue f2))

/-- R72, R104, R110: from any state with an empty line, the bytes of a line and its terminator, performed by ING one step each, publish
the parse of the line's digits and commas (1 to 31 of them) and leave every other component as it was. -/
def Obligations.LineOfBytesGivesItsSample : Prop :=
  ∀ (s : State) (bytes : List Byte) (term : Byte) (offers rest : List Offer),
    s.line.li = 0 → (term = 0x0A#8 ∨ term = 0x0D#8) → (∀ b ∈ bytes, b ≠ 0x0A#8 ∧ b ≠ 0x0D#8) →
    1 ≤ (bytes.filter DigitOrComma).length → (bytes.filter DigitOrComma).length ≤ 31 →
    List.Forall₂ (fun (o : Offer) b => o.agent = .ing ∧ SpellsByte b o.words) offers (bytes ++ [term]) →
    s.inbox = offers ++ rest →
    ∃ line : LineRegs, line.li = 0 ∧
      Host.Core.run core (bytes.length + 1) s = .next { s with
        line := line
        mb := { x := (parse (bytes.filter DigitOrComma)).x, y := (parse (bytes.filter DigitOrComma)).y,
                valid := (parse (bytes.filter DigitOrComma)).valid, ready := true }
        actor := .ing
        inbox := rest
        result := .nothing }

/-- R102, R110(5): a line of exactly 32 digits and commas publishes nothing. -/
def Obligations.LineOfThirtyTwoPublishesNothing : Prop :=
  ∀ (s : State) (bytes : List Byte) (term : Byte) (offers rest : List Offer),
    s.line.li = 0 → (term = 0x0A#8 ∨ term = 0x0D#8) → (∀ b ∈ bytes, b ≠ 0x0A#8 ∧ b ≠ 0x0D#8) →
    (bytes.filter DigitOrComma).length = 32 →
    List.Forall₂ (fun (o : Offer) b => o.agent = .ing ∧ SpellsByte b o.words) offers (bytes ++ [term]) →
    s.inbox = offers ++ rest →
    ∃ line : LineRegs, line.li = 0 ∧
      Host.Core.run core (bytes.length + 1) s =
        .next { s with line := line, actor := .ing, inbox := rest, result := .nothing }

/-! ### SampleMailbox -/

/-- R120: Publish writes the whole cell and READY, whatever was pending; performed by CTL it is refused. -/
def Obligations.PublishWritesTheCell : Prop :=
  ∀ (x y : Word16) (v : Bool) (s : State),
    (s.actor = .ing →
      exec (.mbPublish x y v) s = .next { s with mb := { x := x, y := y, valid := v, ready := true }, result := .nothing }) ∧
    (s.actor = .ctl → exec (.mbPublish x y v) s = .next (refusedState s .wrongAgent))

/-- R121: Take answers the pending sample and clears READY only, or answers none and changes nothing; performed by ING it is refused. -/
def Obligations.TakeAnswersAndClears : Prop :=
  ∀ s : State,
    (s.actor = .ctl → s.mb.ready = true → exec .mbTake s = .next { s with
      mb := { s.mb with ready := false }
      result := .sample (some { x := s.mb.x, y := s.mb.y, valid := s.mb.valid }) }) ∧
    (s.actor = .ctl → s.mb.ready = false → exec .mbTake s = .next { s with result := .sample none }) ∧
    (s.actor = .ing → exec .mbTake s = .next (refusedState s .wrongAgent))

/-- R57: a Take after a Take answers nothing and changes nothing, and a second Publish of the same sample leaves the same state. -/
def Obligations.TakeOnceAndPublishIdempotent : Prop :=
  (∀ s t : State, s.actor = .ctl → exec .mbTake s = .next t → exec .mbTake t = .next { t with result := .sample none }) ∧
  (∀ (s t : State) (x y : Word16) (v : Bool), s.actor = .ing →
    exec (.mbPublish x y v) s = .next t → exec (.mbPublish x y v) t = .next t)

/-- R31, R60, R122: whatever well-formed operation is performed, the mailbox changes only by a whole Publish of ING (a terminator byte or MB_PUBLISH) or by
clearing READY in a Take of CTL (an enabled tick or MB_TAKE). -/
def Obligations.MailboxChangesOnlyByPublishAndTake : Prop :=
  ∀ (i : Instr) (s t : State), i.wf = true → exec i s = .next t → t.mb ≠ s.mb →
    (s.actor = .ing ∧ t.mb.ready = true ∧
      ((∃ b, ConsumesByte i b ∧ (b = 0x0A#8 ∨ b = 0x0D#8)) ∨ ∃ x y v, i = .mbPublish x y v)) ∨
    (s.actor = .ctl ∧ s.mb.ready = true ∧ t.mb = { s.mb with ready := false } ∧ ((i = .smTick ∧ s.sm.en = true) ∨ i = .mbTake))

/-! ### AxisPID -/

/-- R131: PID_CALC by its five steps, and its refusal where the unclamped output is NaN; step 4's sum is as NUM evaluates it, and R8: at
the default NUM in the written order, with nothing fused. -/
def Obligations.PidCalcFollowsItsFiveSteps : Prop :=
  (∀ (a : Axis) (e : F32) (s : State), s.actor = .ctl → isFinite e = true →
    (flt (fabs e) (f32 ((s.pid a).dz.toNat : Int)) = true →
      exec (.pidCalc a e) s = .next (withBank s a (cleared (s.pid a)) (.output 0#32))) ∧
    (flt (fabs e) (f32 ((s.pid a).dz.toNat : Int)) = false →
      ∀ integ deriv u : F32, integ = clamped (fadd s.num (s.pid a).integ e) (s.pid a).imax → deriv = fsub s.num e (s.pid a).last →
        u = fdot3 s.num (s.pid a).kp e (s.pid a).ki integ (s.pid a).kd deriv →
        (isNaN u = true → exec (.pidCalc a e) s = .next (refusedState s .pidNan)) ∧
        (isNaN u = false → exec (.pidCalc a e) s = .next
          (withBank s a { s.pid a with err := e, last := e, integ := integ, deriv := deriv } (.output (clamped u (s.pid a).omax)))))) ∧
  (∀ kp e ki integ kd deriv : F32, fdot3 .standard kp e ki integ kd deriv =
    fadd .standard (fadd .standard (fmul .standard kp e) (fmul .standard ki integ)) (fmul .standard kd deriv))

/-- R131's operand domain: PID_CALC with an error that is not finite is refused with pid_nan (the model's reading, log entry 14). -/
def Obligations.PidCalcRefusesNonFiniteErrors : Prop :=
  ∀ (a : Axis) (e : F32) (s : State), s.actor = .ctl → isFinite e = false →
    exec (.pidCalc a e) s = .next (refusedState s .pidNan)

/-- R133: PID_RESET clears the four transient registers of its bank only. -/
def Obligations.PidResetClearsTransients : Prop :=
  ∀ (a : Axis) (s : State), s.actor = .ctl → exec (.pidReset a) s = .next (withBank s a (cleared (s.pid a)) .nothing)

/-- R134: PID_SET_PARAMS replaces the gains of its bank only; a non-finite gain is refused. -/
def Obligations.PidSetParamsReplacesGains : Prop :=
  ∀ (a : Axis) (kp ki kd : F32) (s : State), s.actor = .ctl →
    ((isFinite kp = true ∧ isFinite ki = true ∧ isFinite kd = true) →
      exec (.pidSetParams a kp ki kd) s = .next (withBank s a { s.pid a with kp := kp, ki := ki, kd := kd } .nothing)) ∧
    ((isFinite kp = false ∨ isFinite ki = false ∨ isFinite kd = false) →
      exec (.pidSetParams a kp ki kd) s = .next (refusedState s .badGain))

/-- R135: PID_GET_PARAMS answers the gains and writes no register. -/
def Obligations.PidGetParamsAnswersGains : Prop :=
  ∀ (a : Axis) (s : State), s.actor = .ctl →
    exec (.pidGetParams a) s = .next { s with result := .gains (s.pid a).kp (s.pid a).ki (s.pid a).kd }

/-- R132: at the default NUM (R8), with the bank in its domain, a PID_CALC leaves |INTEG| at most IMAX and answers |u| at most OMAX. -/
def Obligations.PidCalcStaysWithinItsLimits : Prop :=
  ∀ (a : Axis) (e u : F32) (s t : State), s.actor = .ctl → s.num = .standard → BankInv (s.pid a) →
    exec (.pidCalc a e) s = .next t → t.result = .output u →
    BankInv (t.pid a) ∧ isFinite u = true ∧ |fvalue u| ≤ fvalue (s.pid a).omax

/-- R132: at the default NUM (R8), with e at least twice IMAX (or at most minus twice), outside the deadzone, one call sets INTEG to exactly IMAX (or -IMAX), from any
INTEG of the bank's domain. -/
def Obligations.IntegralSaturatesInOneCall : Prop :=
  ∀ (a : Axis) (e u : F32) (s t : State), s.actor = .ctl → s.num = .standard → BankInv (s.pid a) → isFinite e = true →
    flt (fabs e) (f32 ((s.pid a).dz.toNat : Int)) = false →
    exec (.pidCalc a e) s = .next t → t.result = .output u →
    (2 * fvalue (s.pid a).imax ≤ fvalue e → fvalue (t.pid a).integ = fvalue (s.pid a).imax) ∧
    (fvalue e ≤ -(2 * fvalue (s.pid a).imax) → fvalue (t.pid a).integ = -fvalue (s.pid a).imax)

/-- R132: at the default NUM (R8), outside the deadzone a positive error never lowers INTEG and a negative one never raises it. -/
def Obligations.IntegralFollowsTheErrorsSign : Prop :=
  ∀ (a : Axis) (e u : F32) (s t : State), s.actor = .ctl → s.num = .standard → BankInv (s.pid a) → isFinite e = true →
    flt (fabs e) (f32 ((s.pid a).dz.toNat : Int)) = false →
    exec (.pidCalc a e) s = .next t → t.result = .output u →
    (0 < fvalue e → fvalue (s.pid a).integ ≤ fvalue (t.pid a).integ) ∧
    (fvalue e < 0 → fvalue (t.pid a).integ ≤ fvalue (s.pid a).integ)

/-! ### Numerics -/

/-- R8, R12: at the default NUM each rounded operation of finite operands (a divisor not zero) rounds the exact sum, difference,
product or quotient to nearest, ties to even, and overflows to the infinity of its sign. -/
def Obligations.RoundedOperationsAreNearestEven : Prop :=
  ∀ a b : F32, isFinite a = true → isFinite b = true →
    RoundsTo (fadd .standard a b) (fvalue a + fvalue b) 1 ∧
    RoundsTo (fsub .standard a b) (fvalue a - fvalue b) 1 ∧
    RoundsTo (fmul .standard a b) (fvalue a * fvalue b) (2 ^ 149) ∧
    (fvalue b ≠ 0 → RoundsTo (fdiv .standard a b) (fvalue a * 2 ^ 149) (fvalue b))

/-- R12, R155: f32 of an integer up to 2^24 is exact, the deadzone test of PID_CALC on it is the integer comparison of the tick, and the
ordered comparisons compare values (+0.0 and -0.0 alike, an infinity as 2^128) and are false when an operand is NaN. -/
def Obligations.IntegersAreExactAndDeadzoneTestsAgree : Prop :=
  (∀ n : Int, n.natAbs ≤ 2 ^ 24 →
    isFinite (f32 n) = true ∧ fvalue (f32 n) = n * 2 ^ 149 ∧
    ∀ dz : Byte, flt (fabs (f32 n)) (f32 (dz.toNat : Int)) = decide (n.natAbs < dz.toNat)) ∧
  (∀ a b : F32, isNaN a = false → isNaN b = false →
    (flt a b = true ↔ fvalue a < fvalue b) ∧ (fgt a b = true ↔ fvalue b < fvalue a)) ∧
  (∀ a b : F32, isNaN a = true ∨ isNaN b = true → flt a b = false ∧ fgt a b = false)

/-- R185: roundHalfAway answers an integer at most one half away from q, the one of larger magnitude where two are one half away. -/
def Obligations.RoundHalfAwayIsNearestTiesAway : Prop :=
  ∀ q : F32, isFinite q = true →
    2 * |fvalue q - roundHalfAway q * 2 ^ 149| ≤ 2 ^ 149 ∧
    (2 * |fvalue q - roundHalfAway q * 2 ^ 149| = 2 ^ 149 → |fvalue q| < |roundHalfAway q| * 2 ^ 149)

/-! ### MotionEncoder -/

/-- R180 to R184, R190: ENC_MOVE, performed by CTL (log entry 5), answers a Stop below the threshold, else the Move frame with the pulse
count's magnitude and the rotation of its sign, and refuses a non-finite angle and a count above 2^31 - 1; it writes no register.
That a quotient which is not finite counts as above 2^31 - 1 is the model's choice (log entry 32). -/
def Obligations.EncMoveAnswersItsFrame : Prop :=
  ∀ (m : Motor) (angle : F32) (speed : Word16) (accel : Byte) (s : State), s.actor = .ctl →
    (isFinite angle = false → exec (.encMove m angle speed accel) s = .next (refusedState s .badAngle)) ∧
    (isFinite angle = true → flt (fabs angle) 0x3DCCCCCD#32 = true →
      exec (.encMove m angle speed accel) s = .next { s with result := .frame (stopBytes m) }) ∧
    (isFinite angle = true → flt (fabs angle) 0x3DCCCCCD#32 = false → 2 ^ 31 - 1 < (pulseCount s.num angle).natAbs →
      exec (.encMove m angle speed accel) s = .next (refusedState s .pulseRange)) ∧
    (isFinite angle = true → flt (fabs angle) 0x3DCCCCCD#32 = false → (pulseCount s.num angle).natAbs ≤ 2 ^ 31 - 1 →
      exec (.encMove m angle speed accel) s = .next { s with
        result := .frame (moveBytes m (if 0 < pulseCount s.num angle then dirByte s.dirPos else dirByte s.dirPos ^^^ 0x01#8)
          speed accel (pulseCount s.num angle).natAbs) })

/-- R186, R187: ENC_STOP and ENC_ENABLE, performed by CTL (log entry 5), answer their frame and write no register. -/
def Obligations.EncStopAndEnableAnswerTheirFrames : Prop :=
  ∀ (m : Motor) (en : Bool) (s : State), s.actor = .ctl →
    exec (.encStop m) s = .next { s with result := .frame (stopBytes m) } ∧
    exec (.encEnable m en) s = .next { s with result := .frame (enableBytes m en) }

/-- R182: at the default NUM (R8), an angle at or above the threshold never gives a zero pulse count, and the count has the angle's sign.
Where angle * 3200 overflows, the count is the model's choice (log entry 32). -/
def Obligations.MoveNeverCarriesZeroPulses : Prop :=
  ∀ angle : F32, isFinite angle = true → flt (fabs angle) 0x3DCCCCCD#32 = false →
    pulseCount .standard angle ≠ 0 ∧ (0 < pulseCount .standard angle ↔ 0 < fvalue angle)

/-! ### TrackingStateMachine -/

/-- R151: a disabled tick reads and writes nothing; like every SM_TICK operation it is counted (R205). -/
def Obligations.DisabledTickChangesNothing : Prop :=
  ∀ s : State, s.actor = .ctl → s.sm.en = false →
    exec .smTick s = .next { s with tickIndex := s.tickIndex + 1, result := .nothing }

/-- R158, R159: an enabled tick that finds no valid sample counts one loss, goes Idle, clears the dwell count, touches no PID bank and sends
no frame; the lost event comes at loss counts 1, 51, 101, … -/
def Obligations.LossTickCountsAndGoesIdle : Prop :=
  ∀ s : State, s.actor = .ctl → s.sm.en = true → (s.mb.ready = false ∨ s.mb.valid = false) →
    exec .smTick s = .next { tickTaken s with
      sm := { en := true, mode := .idle, dwell := 0#8, loss := s.sm.loss + 1 }
      lost := if (s.sm.loss + 1).toNat % 50 = 1 then s.lost ++ [s.sm.loss + 1] else s.lost }

/-- R153, R154, R157: a valid tick with an error outside its deadzone regulates both axes, emits its record, clears the dwell count and sends
each motor the frame of its own Move. -/
def Obligations.OutsideTickMovesBothAxes : Prop :=
  ∀ (s : State) (bH bV : PidBank) (outH outV : F32) (fH fV : Frame), ValidTick s → ¬ Inside s →
    pidCalc s.num s.pidH (f32 (errorOf s.mb.x)) = .ok (bH, outH) → pidCalc s.num s.pidV (f32 (errorOf s.mb.y)) = .ok (bV, outV) →
    encMove s.num s.dirPos .horizontal (fmul s.num outH 0x3C23D70A#32) 0x04B0#16 0x05#8 = .ok fH →
    encMove s.num s.dirPos .vertical (fmul s.num outV 0x3C23D70A#32) 0x04B0#16 0x05#8 = .ok fV →
    exec .smTick s = .next { tickTaken s with
      pidH := bH
      pidV := bV
      sm := { en := true, mode := .tracking, dwell := 0#8, loss := 0#32 }
      fb := s.fb ++ [entryOf s outH outV .tracking]
      out1 := s.out1 ++ [fV]
      out2 := s.out2 ++ [fH]
      sendLog := s.sendLog ++ [.both] }

/-- R155: a valid tick inside both deadzones, the dwell count staying below 10, clears both banks' transients, counts one dwell tick, emits
its record with outputs 0 and sends no frame. -/
def Obligations.InsideTickCountsDwell : Prop :=
  ∀ s : State, ValidTick s → Inside s → s.sm.dwell.toNat + 1 < 10 →
    exec .smTick s = .next { tickTaken s with
      pidH := cleared s.pidH
      pidV := cleared s.pidV
      sm := { en := true, mode := .tracking, dwell := s.sm.dwell + 1, loss := 0#32 }
      fb := s.fb ++ [entryOf s 0#32 0#32 .tracking] }

/-- R156: a dwell count that reaches 10 locks: mode Locked, a Stop to both motors, a second record tagged Locked, the dwell count 0. -/
def Obligations.TenthInsideTickLocks : Prop :=
  ∀ s : State, ValidTick s → Inside s → 9 ≤ s.sm.dwell.toNat → s.sm.dwell.toNat < 255 →
    exec .smTick s = .next { tickTaken s with
      pidH := cleared s.pidH
      pidV := cleared s.pidV
      sm := { en := true, mode := .locked, dwell := 0#8, loss := 0#32 }
      fb := s.fb ++ [entryOf s 0#32 0#32 .tracking, entryOf s 0#32 0#32 .locked]
      out1 := s.out1 ++ [stopBytes .vertical]
      out2 := s.out2 ++ [stopBytes .horizontal]
      sendLog := s.sendLog ++ [.both] }

/-- R150: a refusal of PID_CALC or ENC_MOVE inside a valid tick refuses the whole tick, which changes no state. The model's choices: it is
counted (log entry 12), and where both axes are refused the answer names the horizontal axis's reason (log entry 31). -/
def Obligations.RefusedTickChangesNothing : Prop :=
  ∀ (s : State) (r : RefuseReason), ValidTick s →
    (pidCalc s.num s.pidH (f32 (errorOf s.mb.x)) = .error r ∨
     (∃ h, pidCalc s.num s.pidH (f32 (errorOf s.mb.x)) = .ok h ∧ pidCalc s.num s.pidV (f32 (errorOf s.mb.y)) = .error r) ∨
     (∃ bH outH bV outV, ¬ Inside s ∧ pidCalc s.num s.pidH (f32 (errorOf s.mb.x)) = .ok (bH, outH) ∧
        pidCalc s.num s.pidV (f32 (errorOf s.mb.y)) = .ok (bV, outV) ∧
        (encMove s.num s.dirPos .horizontal (fmul s.num outH 0x3C23D70A#32) 0x04B0#16 0x05#8 = .error r ∨
          ∃ fH, encMove s.num s.dirPos .horizontal (fmul s.num outH 0x3C23D70A#32) 0x04B0#16 0x05#8 = .ok fH ∧
            encMove s.num s.dirPos .vertical (fmul s.num outV 0x3C23D70A#32) 0x04B0#16 0x05#8 = .error r))) →
    exec .smTick s = .next (refusedState { s with tickIndex := s.tickIndex + 1 } r)

/-- R162: from an enabled state with dwell count 0, n consecutive valid samples inside both deadzones, each followed by its tick, give Tracking
with dwell count n and no frame for 0 < n < 10, and for n = 10 give Locked exactly once, one Stop to each motor and the
dwell count 0. -/
def Obligations.TenInsideTicksLockOnce : Prop :=
  ∀ (s : State) (smps : List Sample) (rest : List Offer), s.sm.en = true → s.sm.dwell = 0 →
    (∀ smp ∈ smps, InsideSample s smp) → s.inbox = smps.flatMap publishThenTick ++ rest →
    (0 < smps.length → smps.length < 10 → ∃ t, Host.Core.run core (2 * smps.length) s = .next t ∧
      t.sm = { en := true, mode := .tracking, dwell := BitVec.ofNat 8 smps.length, loss := 0#32 } ∧
      t.out1 = s.out1 ∧ t.out2 = s.out2 ∧ t.refused = s.refused ∧ t.inbox = rest) ∧
    (smps.length = 10 → ∃ t, Host.Core.run core 20 s = .next t ∧
      t.sm = { en := true, mode := .locked, dwell := 0#8, loss := 0#32 } ∧
      t.out1 = s.out1 ++ [stopBytes .vertical] ∧ t.out2 = s.out2 ++ [stopBytes .horizontal] ∧
      (t.fb.drop s.fb.length).map (fun e => e.record.mode) = List.replicate 10 .tracking ++ [.locked] ∧
      t.refused = s.refused ∧ t.inbox = rest)

/-- R160, R242: SM_ENABLE sets EN, goes Idle, clears the dwell count and both banks' transients; the loss count, the mailbox, the line, gains,
limits and flags are kept and no frame is sent. -/
def Obligations.EnableResetsTracking : Prop :=
  ∀ s : State, s.actor = .ctl →
    exec .smEnable s = .next { s with
      sm := { en := true, mode := .idle, dwell := 0#8, loss := s.sm.loss }
      pidH := cleared s.pidH
      pidV := cleared s.pidV
      result := .nothing }

/-- R161: SM_DISABLE clears EN, goes Idle and sends both Stops; the banks and the counts are kept. -/
def Obligations.DisableStopsBoth : Prop :=
  ∀ s : State, s.actor = .ctl →
    exec .smDisable s = .next { withBothStopped s with sm := { s.sm with en := false, mode := .idle } }

/-! ### Collaborator surface, frames and telemetry -/

/-- R200: HOST_STOP_ALL sends both Stops and changes no register. -/
def Obligations.StopAllStopsBoth : Prop :=
  ∀ s : State, s.actor = .ctl → exec .hostStopAll s = .next (withBothStopped s)

/-- R201, R190: HOST_MOVE sends the frame ENC_MOVE encodes to the motor named, a Stop below the threshold and a Move from it on, and is
refused where ENC_MOVE is. That a quotient which is not finite counts as above 2^31 - 1 is the model's choice (log entry 32). -/
def Obligations.HostMoveSendsTheEncodedFrame : Prop :=
  ∀ (m : Motor) (angle : F32) (speed : Word16) (accel : Byte) (s : State), s.actor = .ctl →
    (isFinite angle = false → exec (.hostMove m angle speed accel) s = .next (refusedState s .badAngle)) ∧
    (isFinite angle = true → flt (fabs angle) 0x3DCCCCCD#32 = true →
      exec (.hostMove m angle speed accel) s = .next (withSent s m (stopBytes m))) ∧
    (isFinite angle = true → flt (fabs angle) 0x3DCCCCCD#32 = false → 2 ^ 31 - 1 < (pulseCount s.num angle).natAbs →
      exec (.hostMove m angle speed accel) s = .next (refusedState s .pulseRange)) ∧
    (isFinite angle = true → flt (fabs angle) 0x3DCCCCCD#32 = false → (pulseCount s.num angle).natAbs ≤ 2 ^ 31 - 1 →
      exec (.hostMove m angle speed accel) s = .next (withSent s m
        (moveBytes m (if 0 < pulseCount s.num angle then dirByte s.dirPos else dirByte s.dirPos ^^^ 0x01#8)
          speed accel (pulseCount s.num angle).natAbs)))

/-- R202: HOST_MOTOR_ENABLE sends the Enable/Disable frame to the motor named. -/
def Obligations.MotorEnableSendsItsFrame : Prop :=
  ∀ (m : Motor) (en : Bool) (s : State), s.actor = .ctl →
    exec (.hostMotorEnable m en) s = .next (withSent s m (enableBytes m en))

/-- R203: HOST_SET_FLAG writes the flag named and nothing else. -/
def Obligations.SetFlagWritesTheFlag : Prop :=
  ∀ (v : Bool) (s : State), s.actor = .ctl →
    exec (.hostSetFlag .feedbackEn v) s = .next { s with host := { s.host with feedbackEn := v }, result := .nothing } ∧
    exec (.hostSetFlag .debugEn v) s = .next { s with host := { s.host with debugEn := v }, result := .nothing }

/-- R74, R75, R76, R189: a frame row, offered by CTL, is issued to its motor (the model's reading of these rows, log entry 8). -/
def Obligations.FramesAreIssuedToTheirMotor : Prop :=
  ∀ (m : Motor) (dir : Rotation) (speed : Word16) (accel : Byte) (pulses : Word32) (en : Bool) (s : State), s.actor = .ctl →
    exec (.frameMove m dir speed accel pulses) s = .next (withSent s m (moveBytes m (dirByte dir) speed accel pulses.toNat)) ∧
    exec (.frameStop m) s = .next (withSent s m (stopBytes m)) ∧
    exec (.frameEnable m en) s = .next (withSent s m (enableBytes m en))

/-- R80, R205: a telemetry line joins the downlink exactly when it is the line of a record emitted with HOST.FEEDBACK_EN = 1 at least 10 ticks
after the latest line's; otherwise nothing changes (the model's reading of the row, log entry 9; it is performed by CTL, log entry 5). The line holds the record's seven
fields in order, and (R53) each text is ASCII. It holds for every text form of the numbers (log entry 21). That the
state is written as one ASCII digit is the model's choice (log entry 34). -/
def Obligations.TelemetryLinesAreGatedRecords : Prop :=
  (∀ r : FeedbackRecord, FieldTexts (textsOf r)) ∧
  ∀ (t : TelemetryText) (m : TrackingMode) (s : State), s.actor = .ctl →
    (∀ e ∈ s.fb, e.feedbackEn = true → textsOf e.record = t → e.record.mode = m →
      (∀ l, s.tlm.getLast? = some l → l.tick + 10 ≤ e.tick) →
      ∃ e' ∈ s.fb, e'.feedbackEn = true ∧ textsOf e'.record = t ∧ e'.record.mode = m ∧
        (∀ l, s.tlm.getLast? = some l → l.tick + 10 ≤ e'.tick) ∧
        exec (.tlmData t m) s = .next { s with tlm := s.tlm ++ [e'], result := .nothing } ∧
        downlink { s with tlm := s.tlm ++ [e'], result := .nothing } = downlink s ++ [lineBytes t m]) ∧
    ((∀ e ∈ s.fb, e.feedbackEn = true → textsOf e.record = t → e.record.mode = m →
      ∃ l, s.tlm.getLast? = some l ∧ e.tick < l.tick + 10) →
      exec (.tlmData t m) s = .next { s with result := .nothing })

/-- R189: of each issued frame its motor receives a leading part, none or all of it included; it holds for every draw. -/
def Obligations.DeliveryIsALeadingPartOfEachFrame : Prop :=
  ∀ (s : State) (m : Motor), List.Forall₂ (fun (d : List Byte) (f : Frame) => d <+: f) (delivered s m) (s.out m)

/-! ### Whole-machine rules -/

/-- R60, R217, R223: ING performs only the decoder's operations and MB_PUBLISH, CTL every other one; an operation offered by the agent that
may not perform it is refused with wrong_agent and changes no state. R217 names MB_PUBLISH and MB_TAKE; for the other operations the
refusal is the model's reading of R20 and R223 (log entries 4 and 5), and that an SM_TICK of ING is not counted as a tick is the model's
choice (log entry 33). -/
def Obligations.WrongAgentIsRefused : Prop :=
  ∀ (i : Instr) (s : State),
    (s.actor ≠ performer i → exec i s = .next (refusedState s .wrongAgent)) ∧
    (i.wf = true → (performer i = .ing ↔ (∃ b, ConsumesByte i b) ∨ ∃ x y v, i = .mbPublish x y v))

/-- R20, R60: what ING performs touches nothing the control domain owns, and what CTL performs touches no decoder register and of the mailbox
clears READY at most. -/
def Obligations.DomainsShareOnlyTheMailbox : Prop :=
  ∀ (i : Instr) (s t : State), exec i s = .next t →
    (s.actor = .ing → t.pidH = s.pidH ∧ t.pidV = s.pidV ∧ t.sm = s.sm ∧ t.host = s.host ∧ t.out1 = s.out1 ∧ t.out2 = s.out2 ∧
      t.fb = s.fb ∧ t.lost = s.lost) ∧
    (s.actor = .ctl → t.line = s.line ∧ (t.mb = s.mb ∨ t.mb = { s.mb with ready := false }))

/-- R32, R33, R217: no step changes a PID limit, DIR_POS or NUM, clears the mark REFUSED, or takes back an output. -/
def Obligations.StepsKeepLimitsMarkAndOutputs : Prop :=
  ∀ s t : State, step s = .next t →
    (∀ a, (t.pid a).imax = (s.pid a).imax ∧ (t.pid a).omax = (s.pid a).omax ∧ (t.pid a).dz = (s.pid a).dz) ∧
    t.dirPos = s.dirPos ∧ t.num = s.num ∧ (s.refused = true → t.refused = true) ∧
    s.out1 <+: t.out1 ∧ s.out2 <+: t.out2 ∧ s.fb <+: t.fb ∧ s.lost <+: t.lost ∧ s.tlm <+: t.tlm

/-! ### Invariants of every step -/

/-- R24: every step keeps the accumulated bytes digits and commas. -/
def Obligations.StepKeepsLineInvariant : Prop :=
  ∀ s t : State, LineInv s → step s = .next t → LineInv t

/-- R25, R81: every step keeps coordinates in [0, 240] and an invalid sample at (0, 0), where an MB_PUBLISH offered alone carries such a
sample (in the integrated block none is offered). -/
def Obligations.StepKeepsSampleInvariant : Prop :=
  ∀ s t : State, SampleInv s → PublishesInFrame s → step s = .next t → SampleInv t

/-- R27: at the default NUM (R8), every step keeps both banks in their domain, |INTEG| at most IMAX included, and the NUM. -/
def Obligations.StepKeepsPidInvariant : Prop :=
  ∀ s t : State, PidInv s → s.num = .standard → step s = .next t → PidInv t ∧ t.num = .standard

/-- R30: every step keeps the tracking invariant. -/
def Obligations.StepKeepsTrackingInvariant : Prop :=
  ∀ s t : State, TrackInv s → step s = .next t → TrackInv t

/-- R204, R205: every step keeps the telemetry lines a gated and spaced subsequence of the feedback stream. -/
def Obligations.StepKeepsTelemetryInvariant : Prop :=
  ∀ s t : State, TelemetryInv s → step s = .next t → TelemetryInv t

/-- R79, R157: every step keeps the order of issue naming each motor as often as its stream has frames, whichever order each SendBoth takes, and
every issued frame one the block may emit. R190: in the integrated block a step issues no pulse magnitude above 2^31 - 1. -/
def Obligations.StepKeepsSendInvariant : Prop :=
  ∀ s t : State, SendInv s → step s = .next t →
    SendInv t ∧ (Integrated s → ∀ m, ∀ f ∈ (t.out m).drop (s.out m).length, PulsesInRange f)

/-- All six invariants hold at reset, for whatever parameters are admitted (R130, R241; log entry 13). R240: every output stream is empty.
That the model's own sendLog starts empty too, on which the order of issue in SendInv rests, is the model's choice (log entry 16). -/
def Obligations.ResetMeetsTheInvariants : Prop :=
  LineInv State.reset ∧ SampleInv State.reset ∧ PidInv State.reset ∧ TrackInv State.reset ∧ TelemetryInv State.reset ∧
    SendInv State.reset

/-- R240, R241: the power-on state of a block with the parameters p, for every p (the OPEN ones of R7): line and mailbox empty, each axis's
gains and limits those of its own PIDCFG, transients +0.0, disabled, Idle, counters 0, flags, DIR_POS and NUM as p says, REFUSED 0,
every stream empty. Reset is the power-on state of the block's own parameters, which are admitted; that they are the free choice
wherever R130 admits it, and a zero configuration stands in its place where not, is the model's choice (log entry 13). -/
def Obligations.PowerOnStateIsAsSpecified : Prop :=
  (∀ p : BootParams,
    (State.powerOn p).line.li = 0 ∧ (State.powerOn p).mb = { x := 0, y := 0, valid := false, ready := false } ∧
    (State.powerOn p).pidH =
      { kp := p.pidH.kp, ki := p.pidH.ki, kd := p.pidH.kd, imax := p.pidH.imax, omax := p.pidH.omax, dz := p.pidH.dz,
        err := 0#32, last := 0#32, integ := 0#32, deriv := 0#32 } ∧
    (State.powerOn p).pidV =
      { kp := p.pidV.kp, ki := p.pidV.ki, kd := p.pidV.kd, imax := p.pidV.imax, omax := p.pidV.omax, dz := p.pidV.dz,
        err := 0#32, last := 0#32, integ := 0#32, deriv := 0#32 } ∧
    (State.powerOn p).sm = { en := false, mode := .idle, dwell := 0#8, loss := 0#32 } ∧
    (State.powerOn p).host = { feedbackEn := p.feedbackEnReset, debugEn := p.debugEnReset } ∧
    (State.powerOn p).refused = false ∧ (State.powerOn p).dirPos = p.dirPos ∧ (State.powerOn p).num = p.num ∧
    (State.powerOn p).out1 = [] ∧ (State.powerOn p).out2 = [] ∧ (State.powerOn p).fb = [] ∧ (State.powerOn p).lost = [] ∧
    (State.powerOn p).tlm = []) ∧
  State.reset = State.powerOn Config.params ∧ Config.params.admitted = true ∧
  ((Config.anyParams.admitted = true ∧ Config.params = Config.anyParams) ∨
    (Config.anyParams.admitted = false ∧
      Config.params = { Config.anyParams with pidH := ⟨0, 0, 0, 0, 0, 0⟩, pidV := ⟨0, 0, 0, 0, 0, 0⟩ }))

/-- R130, R241: construction admits exactly finite gains and limits, the limits not below zero, and refuses any other configuration. -/
def Obligations.ConstructionAdmitsOnlyTheDomain : Prop :=
  ∀ p : BootParams,
    ((∀ c ∈ [p.pidH, p.pidV], isFinite c.kp = true ∧ isFinite c.ki = true ∧ isFinite c.kd = true ∧ isFinite c.imax = true ∧
        isFinite c.omax = true ∧ 0 ≤ fvalue c.imax ∧ 0 ≤ fvalue c.omax) → construct p = .ok (State.powerOn p)) ∧
    ((∃ c ∈ [p.pidH, p.pidV], isFinite c.kp = false ∨ isFinite c.ki = false ∨ isFinite c.kd = false ∨ isFinite c.imax = false ∨
        isFinite c.omax = false ∨ fvalue c.imax < 0 ∨ fvalue c.omax < 0) → construct p = .error .badConfig)
end

