-- ==== Sys2Proof/Laws/Binary32.lean ====
section
/-! SUPPORT. The laws of the numerics: what a pattern's value is, what rounding does (said once, in `roundMag_spec`), and the shape of
each rounded operation on finite operands. -/

namespace Sys2Proof.Machine

/-! ### Patterns -/

theorem fmag_lt (x : F32) : fmag x < 2 ^ 31 := Nat.mod_lt _ (by decide)

theorem isFinite_iff (x : F32) : isFinite x = true ↔ fmag x < infMag := by simp [isFinite]

theorem isNaN_of_isFinite {x : F32} (h : isFinite x = true) : isNaN x = false := by
  simp [isFinite, isNaN] at *; omega

theorem isInf_of_isFinite {x : F32} (h : isFinite x = true) : isInf x = false := by
  simp [isFinite, isInf] at *; omega

theorem fpack_toNat {neg : Bool} {mag : Nat} (h : mag < 2 ^ 31) :
    (fpack neg mag).toNat = if neg then 2 ^ 31 + mag else mag := by
  unfold fpack
  rw [BitVec.toNat_ofNat]
  apply Nat.mod_eq_of_lt
  split <;> omega

theorem fmag_fpack {neg : Bool} {mag : Nat} (h : mag < 2 ^ 31) : fmag (fpack neg mag) = mag := by
  unfold fmag
  rw [fpack_toNat h]
  split <;> omega

theorem fsign_fpack {neg : Bool} {mag : Nat} (h : mag < 2 ^ 31) : fsign (fpack neg mag) = neg := by
  unfold fsign
  rw [BitVec.msb_eq_decide, fpack_toNat h]
  cases neg <;> simp
  omega

theorem toNat_eq_fmag (x : F32) : x.toNat = if fsign x then 2 ^ 31 + fmag x else fmag x := by
  have hx := x.isLt
  have hs : fsign x = decide (2 ^ 31 ≤ x.toNat) := by simp [fsign, BitVec.msb_eq_decide]
  unfold fmag
  rw [hs]
  by_cases h : 2 ^ 31 ≤ x.toNat
  · rw [decide_eq_true h, if_pos rfl]; omega
  · rw [decide_eq_false h, if_neg Bool.false_ne_true]; omega

/-- A pattern is its sign and its magnitude. -/
theorem eq_of_fsign_fmag {x y : F32} (hs : fsign x = fsign y) (hm : fmag x = fmag y) : x = y := by
  apply BitVec.eq_of_toNat_eq
  rw [toNat_eq_fmag x, toNat_eq_fmag y, hs, hm]

theorem fsign_fneg (x : F32) : fsign (fneg x) = !fsign x := by
  have h : (0x80000000#32).msb = true := by decide
  simp [fsign, fneg, BitVec.msb_xor, h]

theorem fmag_fneg (x : F32) : fmag (fneg x) = fmag x := by
  unfold fmag fneg
  rw [BitVec.toNat_xor, Nat.xor_mod_two_pow]
  simp

theorem fabs_toNat (x : F32) : (fabs x).toNat = fmag x := by
  unfold fabs fmag
  rw [BitVec.toNat_and]
  exact Nat.and_two_pow_sub_one_eq_mod x.toNat 31

theorem fmag_fabs (x : F32) : fmag (fabs x) = fmag x := by
  rw [fmag, fabs_toNat, Nat.mod_eq_of_lt (fmag_lt x)]

theorem fsign_fabs (x : F32) : fsign (fabs x) = false := by
  have := fmag_lt x
  simp only [fsign, BitVec.msb_eq_decide, fabs_toNat, decide_eq_false_iff_not]
  omega

theorem isFinite_fneg (x : F32) : isFinite (fneg x) = isFinite x := by simp [isFinite, fmag_fneg]
theorem isFinite_fabs (x : F32) : isFinite (fabs x) = isFinite x := by simp [isFinite, fmag_fabs]
theorem isNaN_fneg (x : F32) : isNaN (fneg x) = isNaN x := by simp [isNaN, fmag_fneg]
theorem isNaN_fabs (x : F32) : isNaN (fabs x) = isNaN x := by simp [isNaN, fmag_fabs]

theorem fkey_fneg (x : F32) : fkey (fneg x) = -fkey x := by
  unfold fkey
  rw [fsign_fneg, fmag_fneg]
  cases fsign x <;> simp

theorem fkey_fabs (x : F32) : fkey (fabs x) = (fmag x : Int) := by
  simp [fkey, fsign_fabs, fmag_fabs]

theorem fkey_natAbs (x : F32) : (fkey x).natAbs = fmag x := by
  unfold fkey
  split <;> simp

/-! ### Comparisons -/

theorem flt_iff {a b : F32} (ha : isNaN a = false) (hb : isNaN b = false) : flt a b = true ↔ fkey a < fkey b := by
  simp [flt, ha, hb]

theorem fgt_iff {a b : F32} (ha : isNaN a = false) (hb : isNaN b = false) : fgt a b = true ↔ fkey b < fkey a := by
  simp [fgt, ha, hb]

/-! ### Magnitudes: the value of a pattern in units of 2^-149 -/

/-- The units of a magnitude pattern. -/
def unitsOf (m : Nat) : Nat :=
  let e := m / 2 ^ 23
  let f := m % 2 ^ 23
  if e = 0 then f else (f + 2 ^ 23) * 2 ^ (e - 1)

theorem funits_eq (x : F32) : funits x = unitsOf (fmag x) := rfl

/-- The value of a pattern written as a shift and a significand, the significand's carry included. -/
theorem unitsOf_shift {k m : Nat} (h : k = 0 ∨ 2 ^ 23 ≤ m) (h' : m ≤ 2 ^ 24) :
    unitsOf (k * 2 ^ 23 + m) = m * 2 ^ k := by
  unfold unitsOf
  by_cases hlow : m < 2 ^ 23
  · have hk : k = 0 := by omega
    subst hk
    have : (0 * 2 ^ 23 + m) / 2 ^ 23 = 0 := by omega
    simp only [this, if_pos]
    omega
  · by_cases hmid : m < 2 ^ 24
    · have hd : (k * 2 ^ 23 + m) / 2 ^ 23 = k + 1 := by omega
      have hm : (k * 2 ^ 23 + m) % 2 ^ 23 = m - 2 ^ 23 := by omega
      simp only [hd, hm]
      rw [if_neg (by omega), Nat.add_sub_cancel, Nat.sub_add_cancel (by omega)]
    · have he : m = 2 ^ 24 := by omega
      subst he
      have hd : (k * 2 ^ 23 + 2 ^ 24) / 2 ^ 23 = k + 2 := by omega
      have hm : (k * 2 ^ 23 + 2 ^ 24) % 2 ^ 23 = 0 := by omega
      simp only [hd, hm]
      rw [if_neg (by omega), show k + 2 - 1 = k + 1 from rfl, Nat.pow_succ]
      ring

/-- Every pattern is a shift and a significand below 2^24. -/
theorem exists_shift (p : Nat) : ∃ k m, p = k * 2 ^ 23 + m ∧ (k = 0 ∨ 2 ^ 23 ≤ m) ∧ m < 2 ^ 24 := by
  by_cases h : p < 2 ^ 23
  · exact ⟨0, p, by omega, .inl rfl, by omega⟩
  · exact ⟨p / 2 ^ 23 - 1, p - (p / 2 ^ 23 - 1) * 2 ^ 23, by omega, by omega, by omega⟩

theorem unitsOf_lt_succ (p : Nat) : unitsOf p < unitsOf (p + 1) := by
  obtain ⟨k, m, rfl, h, h'⟩ := exists_shift p
  rw [unitsOf_shift h (by omega), Nat.add_assoc, unitsOf_shift (by omega) (by omega), Nat.add_mul]
  have : 0 < 2 ^ k := by positivity
  omega

theorem unitsOf_strictMono : StrictMono unitsOf := strictMono_nat_of_lt_succ unitsOf_lt_succ

theorem unitsOf_zero : unitsOf 0 = 0 := by decide

/-! ### Rounding -/

/-- What rounding n/d does: with p the last pattern not above n/d, the answer is p or p + 1, whichever is nearer, the
even one when both are as near, and infinity in place of anything larger. -/
theorem roundMag_spec {n d : Nat} (hd : 0 < d) :
    ∃ p, unitsOf p * d ≤ n ∧ n < unitsOf (p + 1) * d ∧
      roundMag n d = min (if unitsOf (p + 1) * d - n < n - unitsOf p * d ∨
        (unitsOf (p + 1) * d - n = n - unitsOf p * d ∧ p % 2 = 1) then p + 1 else p) infMag := by
  let q := n / d
  let k := Nat.log2 q - 23
  let den := d * 2 ^ k
  let m := n / den
  have hpow : 0 < 2 ^ k := by positivity
  have hden : 0 < den := Nat.mul_pos hd hpow
  have hmq : m = q / 2 ^ k := by simp only [m, den, q, Nat.div_div_eq_div_mul]
  have hqlt : q < 2 ^ (Nat.log2 q + 1) := Nat.lt_log2_self
  have hm24 : m < 2 ^ 24 := by
    rw [hmq, Nat.div_lt_iff_lt_mul hpow, ← Nat.pow_add]
    exact lt_of_lt_of_le hqlt (Nat.pow_le_pow_right (by decide) (by omega))
  have hm23 : k = 0 ∨ 2 ^ 23 ≤ m := by
    by_cases hk : k = 0
    · exact .inl hk
    · right
      have hq0 : q ≠ 0 := by
        rintro h0
        have : k = Nat.log2 0 - 23 := by rw [← h0]
        simp [Nat.log2_zero] at this
        exact hk this
      rw [hmq, Nat.le_div_iff_mul_le hpow, ← Nat.pow_add]
      have h23 : 23 + k = Nat.log2 q := by omega
      rw [h23]
      exact Nat.log2_self_le hq0
  have hu : unitsOf (k * 2 ^ 23 + m) * d = m * den := by
    rw [unitsOf_shift hm23 (by omega)]; simp only [den]; ring
  have hu' : unitsOf (k * 2 ^ 23 + m + 1) * d = (m + 1) * den := by
    rw [Nat.add_assoc, unitsOf_shift (by omega) (by omega)]; simp only [den]; ring
  have hn : m * den + n % den = n := by
    have := Nat.div_add_mod n den
    simp only [m]; rw [Nat.mul_comm]; exact this
  have hr : n % den < den := Nat.mod_lt _ hden
  refine ⟨k * 2 ^ 23 + m, ?_, ?_, ?_⟩
  · rw [hu]; omega
  · rw [hu', Nat.add_mul]; omega
  · rw [hu, hu', Nat.add_mul, Nat.one_mul]
    have e1 : m * den + den - n = den - n % den := by omega
    have e2 : n - m * den = n % den := by omega
    have e3 : (k * 2 ^ 23 + m) % 2 = m % 2 := by omega
    rw [e1, e2, e3]
    show min (k * 2 ^ 23 + (if den < 2 * (n % den) ∨ (2 * (n % den) = den ∧ m % 2 = 1) then m + 1 else m)) infMag = _
    congr 1
    by_cases hc : den < 2 * (n % den) ∨ (2 * (n % den) = den ∧ m % 2 = 1)
    · rw [if_pos hc, if_pos (by omega), Nat.add_assoc]
    · rw [if_neg hc, if_neg (by omega)]

theorem roundMag_le_infMag (n d : Nat) : roundMag n d ≤ infMag := Nat.min_le_right _ _

theorem roundMag_lt (n d : Nat) : roundMag n d < 2 ^ 31 :=
  Nat.lt_of_le_of_lt (roundMag_le_infMag n d) (by decide)

/-- Rounding keeps a value that a pattern has. -/
theorem roundMag_exact {d m : Nat} (hd : 0 < d) (hm : m ≤ infMag) : roundMag (unitsOf m * d) d = m := by
  obtain ⟨p, hle, hlt, h⟩ := roundMag_spec (n := unitsOf m * d) hd
  have h1 : unitsOf p ≤ unitsOf m := Nat.le_of_mul_le_mul_right hle hd
  have h2 : unitsOf m < unitsOf (p + 1) := Nat.lt_of_mul_lt_mul_right hlt
  have hp : p = m := by
    have := unitsOf_strictMono.le_iff_le.mp h1
    have := unitsOf_strictMono.lt_iff_lt.mp h2
    omega
  subst hp
  rw [h, if_neg]
  · exact Nat.min_eq_left hm
  · have := Nat.mul_lt_mul_of_pos_right h2 hd
    omega

/-- Rounding is monotone. -/
theorem roundMag_mono {n n' d d' : Nat} (hd : 0 < d) (hd' : 0 < d') (h : n * d' ≤ n' * d) :
    roundMag n d ≤ roundMag n' d' := by
  obtain ⟨p, hle, hlt, hr⟩ := roundMag_spec (n := n) hd
  obtain ⟨p', hle', hlt', hr'⟩ := roundMag_spec (n := n') hd'
  have hpp : p ≤ p' := by
    by_contra hc
    have h1 : unitsOf (p' + 1) ≤ unitsOf p := unitsOf_strictMono.monotone (by omega)
    have h2 : n' * d < n * d' :=
      calc n' * d < unitsOf (p' + 1) * d' * d := Nat.mul_lt_mul_of_pos_right hlt' hd
        _ ≤ unitsOf p * d' * d := Nat.mul_le_mul_right _ (Nat.mul_le_mul_right _ h1)
        _ = unitsOf p * d * d' := by ring
        _ ≤ n * d' := Nat.mul_le_mul_right _ hle
    omega
  rw [hr, hr']
  apply min_le_min_right
  rcases Nat.lt_or_eq_of_le hpp with hlt2 | heq
  · split <;> split <;> omega
  · subst heq
    by_cases hc : unitsOf (p + 1) * d - n < n - unitsOf p * d ∨
        (unitsOf (p + 1) * d - n = n - unitsOf p * d ∧ p % 2 = 1)
    · rw [if_pos hc, if_pos]
      have hc2 : unitsOf p * d + unitsOf (p + 1) * d ≤ 2 * n := by omega
      have hc3 : unitsOf p * d' + unitsOf (p + 1) * d' ≤ 2 * n' := by
        have : (unitsOf p * d' + unitsOf (p + 1) * d') * d ≤ 2 * n' * d :=
          calc (unitsOf p * d' + unitsOf (p + 1) * d') * d
              = (unitsOf p * d + unitsOf (p + 1) * d) * d' := by ring
            _ ≤ 2 * n * d' := Nat.mul_le_mul_right _ hc2
            _ = 2 * (n * d') := by ring
            _ ≤ 2 * (n' * d) := by omega
            _ = 2 * n' * d := by ring
        exact Nat.le_of_mul_le_mul_right this hd
      by_cases heq : unitsOf p * d' + unitsOf (p + 1) * d' = 2 * n'
      · right
        refine ⟨by omega, ?_⟩
        rcases hc with hc | hc
        · exfalso
          have hs : unitsOf p * d + unitsOf (p + 1) * d < 2 * n := by omega
          have h1 : (unitsOf p * d' + unitsOf (p + 1) * d') * d < 2 * n' * d :=
            calc (unitsOf p * d' + unitsOf (p + 1) * d') * d
                = (unitsOf p * d + unitsOf (p + 1) * d) * d' := by ring
              _ < 2 * n * d' := Nat.mul_lt_mul_of_pos_right hs hd'
              _ = 2 * (n * d') := by ring
              _ ≤ 2 * (n' * d) := by omega
              _ = 2 * n' * d := by ring
          rw [heq] at h1
          omega
        · exact hc.2
      · left; omega
    · rw [if_neg hc]; split <;> omega

/-- A rounded magnitude below infinity is as near to n/d as any pattern is. -/
theorem roundMag_nearest {n d : Nat} (hd : 0 < d) (hfin : roundMag n d < infMag) (c : Nat) :
    ((unitsOf (roundMag n d) * d : Nat) - n : Int).natAbs ≤ ((unitsOf c * d : Nat) - n : Int).natAbs := by
  obtain ⟨p, hle, hlt, h⟩ := roundMag_spec (n := n) hd
  have hc : unitsOf c * d ≤ unitsOf p * d ∨ unitsOf (p + 1) * d ≤ unitsOf c * d := by
    rcases Nat.lt_or_ge p c with h1 | h1
    · exact .inr (Nat.mul_le_mul_right _ (unitsOf_strictMono.monotone h1))
    · exact .inl (Nat.mul_le_mul_right _ (unitsOf_strictMono.monotone h1))
  rw [h] at hfin ⊢
  split at hfin <;> rename_i hs
  · rw [if_pos hs, Nat.min_eq_left (by omega)]
    omega
  · rw [if_neg hs, Nat.min_eq_left (by omega)]
    omega

/-- Rounding answers a finite pattern exactly below half a unit in the last place above the largest finite value. -/
theorem roundMag_lt_infMag_iff {n d : Nat} (hd : 0 < d) : roundMag n d < infMag ↔ n < (2 ^ 25 - 1) * 2 ^ 252 * d := by
  obtain ⟨p, hle, hlt, h⟩ := roundMag_spec (n := n) hd
  have htop : unitsOf (infMag - 1) * d + unitsOf (infMag - 1 + 1) * d = 2 * ((2 ^ 25 - 1) * 2 ^ 252 * d) := by
    rw [← Nat.add_mul, show unitsOf (infMag - 1) + unitsOf (infMag - 1 + 1) = 2 * ((2 ^ 25 - 1) * 2 ^ 252) by decide +kernel]
    ring
  have hlast : unitsOf (infMag - 1) * d < unitsOf (infMag - 1 + 1) * d := Nat.mul_lt_mul_of_pos_right (unitsOf_lt_succ _) hd
  have hodd : (infMag - 1) % 2 = 1 := by decide
  obtain ⟨q, hq⟩ : ∃ q, infMag = q + 1 := ⟨infMag - 1, by decide⟩
  generalize (2 ^ 25 - 1) * 2 ^ 252 * d = top at htop ⊢
  rw [h]
  generalize infMag = i at *
  subst hq
  rw [Nat.add_sub_cancel] at *
  rcases Nat.lt_trichotomy p q with hp | rfl | hp
  · have hs : p + 1 ≤ q := hp
    have h1 := Nat.mul_le_mul_right d (unitsOf_strictMono.monotone hs)
    exact iff_of_true (lt_of_le_of_lt (min_le_left _ _) (by split <;> omega)) (by omega)
  · split <;> omega
  · have hs : q + 1 ≤ p := hp
    have h1 := Nat.mul_le_mul_right d (unitsOf_strictMono.monotone hs)
    exact iff_of_false (by split <;> omega) (by omega)

/-- Where another pattern is as near as the rounded one, the rounded one is even. -/
theorem roundMag_tie_even {n d : Nat} (hd : 0 < d) (hfin : roundMag n d < infMag) {c : Nat} (hne : c ≠ roundMag n d)
    (heq : ((unitsOf c * d : Nat) - n : Int).natAbs = ((unitsOf (roundMag n d) * d : Nat) - n : Int).natAbs) :
    roundMag n d % 2 = 0 := by
  obtain ⟨p, hle, hlt, h⟩ := roundMag_spec (n := n) hd
  have mono : ∀ {a b}, a < b → unitsOf a * d < unitsOf b * d := fun hab =>
    Nat.mul_lt_mul_of_pos_right (unitsOf_strictMono hab) hd
  rw [h] at hfin hne heq ⊢
  split at hfin <;> rename_i hs
  · rw [if_pos hs, Nat.min_eq_left (by omega)] at hne heq ⊢
    rcases Nat.lt_trichotomy c p with h1 | h1 | h1
    · have := mono h1; omega
    · subst h1; omega
    · rcases Nat.lt_or_eq_of_le (show p + 1 ≤ c from h1) with h2 | h2
      · have := mono h2; omega
      · omega
  · rw [if_neg hs, Nat.min_eq_left (by omega)] at hne heq ⊢
    rcases Nat.lt_trichotomy c p with h1 | h1 | h1
    · have := mono h1; omega
    · omega
    · rcases Nat.lt_or_eq_of_le (show p + 1 ≤ c from h1) with h2 | h2
      · have := mono h2; omega
      · have h3 : c = p + 1 := h2.symm
        subst h3
        omega

/-! ### The rounded operations on finite operands -/

theorem fmag_eq_zero_iff (x : F32) : fmag x = 0 ↔ funits x = 0 := by
  rw [funits_eq]
  constructor
  · intro h; rw [h]; rfl
  · intro h
    by_contra hne
    have : unitsOf 0 < unitsOf (fmag x) := unitsOf_strictMono (Nat.pos_of_ne_zero hne)
    omega

theorem fvalue_fpack {neg : Bool} {mag : Nat} (h : mag < 2 ^ 31) :
    fvalue (fpack neg mag) = if neg then -(unitsOf mag : Int) else (unitsOf mag : Int) := by
  rw [fvalue, fsign_fpack h, funits_eq, fmag_fpack h]

theorem fvalue_fneg (x : F32) : fvalue (fneg x) = -fvalue x := by
  unfold fvalue
  rw [fsign_fneg, funits_eq, funits_eq, fmag_fneg]
  cases fsign x <;> simp

/-- The order of keys is the order of values. -/
theorem fkey_le_iff_fvalue_le (a b : F32) : fkey a ≤ fkey b ↔ fvalue a ≤ fvalue b := by
  have hm := @unitsOf_strictMono.le_iff_le
  have h0 : ∀ m, unitsOf m = 0 ↔ m = 0 := by
    intro m
    constructor
    · intro h
      by_contra hne
      have : unitsOf 0 < unitsOf m := unitsOf_strictMono (Nat.pos_of_ne_zero hne)
      omega
    · rintro rfl; rfl
  have ha := h0 (fmag a)
  have hb := h0 (fmag b)
  have hab := unitsOf_strictMono.le_iff_le (a := fmag a) (b := fmag b)
  have hba := unitsOf_strictMono.le_iff_le (a := fmag b) (b := fmag a)
  unfold fkey fvalue
  rw [funits_eq, funits_eq]
  cases fsign a <;> cases fsign b <;> simp <;> omega

/-- The ordered comparison compares values (R12). -/
theorem flt_iff_fvalue {a b : F32} (ha : isNaN a = false) (hb : isNaN b = false) : flt a b = true ↔ fvalue a < fvalue b := by
  rw [flt_iff ha hb, ← not_le, ← not_le, fkey_le_iff_fvalue_le]

/-- The ordered comparison compares values (R12). -/
theorem fgt_iff_fvalue {a b : F32} (ha : isNaN a = false) (hb : isNaN b = false) : fgt a b = true ↔ fvalue b < fvalue a := by
  rw [fgt_iff ha hb, ← not_le, ← not_le, fkey_le_iff_fvalue_le]

theorem ieeeAdd_finite {a b : F32} (ha : isFinite a = true) (hb : isFinite b = true) :
    ieeeAdd a b = if fvalue a + fvalue b = 0 then fpack (fsign a && fsign b) 0
      else fpack (decide (fvalue a + fvalue b < 0)) (roundMag (fvalue a + fvalue b).natAbs 1) := by
  simp [ieeeAdd, isNaN_of_isFinite ha, isNaN_of_isFinite hb, isInf_of_isFinite ha, isInf_of_isFinite hb]

theorem ieeeMul_finite {a b : F32} (ha : isFinite a = true) (hb : isFinite b = true) :
    ieeeMul a b = fpack (fsign a != fsign b) (roundMag (funits a * funits b) (2 ^ 149)) := by
  simp [ieeeMul, isNaN_of_isFinite ha, isNaN_of_isFinite hb, isInf_of_isFinite ha, isInf_of_isFinite hb]

theorem ieeeDiv_finite {a b : F32} (ha : isFinite a = true) (hb : isFinite b = true) (h0 : fmag b ≠ 0) :
    ieeeDiv a b = fpack (fsign a != fsign b) (roundMag (funits a * 2 ^ 149) (funits b)) := by
  simp [ieeeDiv, isNaN_of_isFinite ha, isNaN_of_isFinite hb, isInf_of_isFinite ha, isInf_of_isFinite hb, h0]

/-- The sum of finite values is no NaN. -/
theorem isNaN_ieeeAdd {a b : F32} (ha : isFinite a = true) (hb : isFinite b = true) : isNaN (ieeeAdd a b) = false := by
  rw [ieeeAdd_finite ha hb]
  split
  · simp [isNaN, fmag_fpack]
  · simp only [isNaN, fmag_fpack (roundMag_lt _ _), decide_eq_false_iff_not, Nat.not_lt]
    exact roundMag_le_infMag _ _

end Sys2Proof.Machine
end

