-- ==== Sys2Proof/Laws/State.lean ====
section
/-! SUPPORT. One lemma per field per named update of State (Machine/Ops.lean), each true by rfl or by the cases of the
axis or motor, tagged simp: no later proof unfolds a record update. -/

namespace Sys2Proof.Machine

variable (s : State)


/-! ### State.setLine -/

@[simp] theorem State.setLine_line (v : LineRegs) : (s.setLine v).line = v := rfl
@[simp] theorem State.setLine_mb (v : LineRegs) : (s.setLine v).mb = s.mb := rfl
@[simp] theorem State.setLine_pidH (v : LineRegs) : (s.setLine v).pidH = s.pidH := rfl
@[simp] theorem State.setLine_pidV (v : LineRegs) : (s.setLine v).pidV = s.pidV := rfl
@[simp] theorem State.setLine_sm (v : LineRegs) : (s.setLine v).sm = s.sm := rfl
@[simp] theorem State.setLine_host (v : LineRegs) : (s.setLine v).host = s.host := rfl
@[simp] theorem State.setLine_refused (v : LineRegs) : (s.setLine v).refused = s.refused := rfl
@[simp] theorem State.setLine_out1 (v : LineRegs) : (s.setLine v).out1 = s.out1 := rfl
@[simp] theorem State.setLine_out2 (v : LineRegs) : (s.setLine v).out2 = s.out2 := rfl
@[simp] theorem State.setLine_fb (v : LineRegs) : (s.setLine v).fb = s.fb := rfl
@[simp] theorem State.setLine_lost (v : LineRegs) : (s.setLine v).lost = s.lost := rfl
@[simp] theorem State.setLine_tlm (v : LineRegs) : (s.setLine v).tlm = s.tlm := rfl
@[simp] theorem State.setLine_sendLog (v : LineRegs) : (s.setLine v).sendLog = s.sendLog := rfl
@[simp] theorem State.setLine_tickIndex (v : LineRegs) : (s.setLine v).tickIndex = s.tickIndex := rfl
@[simp] theorem State.setLine_dirPos (v : LineRegs) : (s.setLine v).dirPos = s.dirPos := rfl
@[simp] theorem State.setLine_num (v : LineRegs) : (s.setLine v).num = s.num := rfl
@[simp] theorem State.setLine_actor (v : LineRegs) : (s.setLine v).actor = s.actor := rfl
@[simp] theorem State.setLine_inbox (v : LineRegs) : (s.setLine v).inbox = s.inbox := rfl
@[simp] theorem State.setLine_result (v : LineRegs) : (s.setLine v).result = s.result := rfl

/-! ### State.setMb -/

@[simp] theorem State.setMb_line (v : Mailbox) : (s.setMb v).line = s.line := rfl
@[simp] theorem State.setMb_mb (v : Mailbox) : (s.setMb v).mb = v := rfl
@[simp] theorem State.setMb_pidH (v : Mailbox) : (s.setMb v).pidH = s.pidH := rfl
@[simp] theorem State.setMb_pidV (v : Mailbox) : (s.setMb v).pidV = s.pidV := rfl
@[simp] theorem State.setMb_sm (v : Mailbox) : (s.setMb v).sm = s.sm := rfl
@[simp] theorem State.setMb_host (v : Mailbox) : (s.setMb v).host = s.host := rfl
@[simp] theorem State.setMb_refused (v : Mailbox) : (s.setMb v).refused = s.refused := rfl
@[simp] theorem State.setMb_out1 (v : Mailbox) : (s.setMb v).out1 = s.out1 := rfl
@[simp] theorem State.setMb_out2 (v : Mailbox) : (s.setMb v).out2 = s.out2 := rfl
@[simp] theorem State.setMb_fb (v : Mailbox) : (s.setMb v).fb = s.fb := rfl
@[simp] theorem State.setMb_lost (v : Mailbox) : (s.setMb v).lost = s.lost := rfl
@[simp] theorem State.setMb_tlm (v : Mailbox) : (s.setMb v).tlm = s.tlm := rfl
@[simp] theorem State.setMb_sendLog (v : Mailbox) : (s.setMb v).sendLog = s.sendLog := rfl
@[simp] theorem State.setMb_tickIndex (v : Mailbox) : (s.setMb v).tickIndex = s.tickIndex := rfl
@[simp] theorem State.setMb_dirPos (v : Mailbox) : (s.setMb v).dirPos = s.dirPos := rfl
@[simp] theorem State.setMb_num (v : Mailbox) : (s.setMb v).num = s.num := rfl
@[simp] theorem State.setMb_actor (v : Mailbox) : (s.setMb v).actor = s.actor := rfl
@[simp] theorem State.setMb_inbox (v : Mailbox) : (s.setMb v).inbox = s.inbox := rfl
@[simp] theorem State.setMb_result (v : Mailbox) : (s.setMb v).result = s.result := rfl

/-! ### State.setSm -/

@[simp] theorem State.setSm_line (v : TrackRegs) : (s.setSm v).line = s.line := rfl
@[simp] theorem State.setSm_mb (v : TrackRegs) : (s.setSm v).mb = s.mb := rfl
@[simp] theorem State.setSm_pidH (v : TrackRegs) : (s.setSm v).pidH = s.pidH := rfl
@[simp] theorem State.setSm_pidV (v : TrackRegs) : (s.setSm v).pidV = s.pidV := rfl
@[simp] theorem State.setSm_sm (v : TrackRegs) : (s.setSm v).sm = v := rfl
@[simp] theorem State.setSm_host (v : TrackRegs) : (s.setSm v).host = s.host := rfl
@[simp] theorem State.setSm_refused (v : TrackRegs) : (s.setSm v).refused = s.refused := rfl
@[simp] theorem State.setSm_out1 (v : TrackRegs) : (s.setSm v).out1 = s.out1 := rfl
@[simp] theorem State.setSm_out2 (v : TrackRegs) : (s.setSm v).out2 = s.out2 := rfl
@[simp] theorem State.setSm_fb (v : TrackRegs) : (s.setSm v).fb = s.fb := rfl
@[simp] theorem State.setSm_lost (v : TrackRegs) : (s.setSm v).lost = s.lost := rfl
@[simp] theorem State.setSm_tlm (v : TrackRegs) : (s.setSm v).tlm = s.tlm := rfl
@[simp] theorem State.setSm_sendLog (v : TrackRegs) : (s.setSm v).sendLog = s.sendLog := rfl
@[simp] theorem State.setSm_tickIndex (v : TrackRegs) : (s.setSm v).tickIndex = s.tickIndex := rfl
@[simp] theorem State.setSm_dirPos (v : TrackRegs) : (s.setSm v).dirPos = s.dirPos := rfl
@[simp] theorem State.setSm_num (v : TrackRegs) : (s.setSm v).num = s.num := rfl
@[simp] theorem State.setSm_actor (v : TrackRegs) : (s.setSm v).actor = s.actor := rfl
@[simp] theorem State.setSm_inbox (v : TrackRegs) : (s.setSm v).inbox = s.inbox := rfl
@[simp] theorem State.setSm_result (v : TrackRegs) : (s.setSm v).result = s.result := rfl

/-! ### State.setHost -/

@[simp] theorem State.setHost_line (v : HostRegs) : (s.setHost v).line = s.line := rfl
@[simp] theorem State.setHost_mb (v : HostRegs) : (s.setHost v).mb = s.mb := rfl
@[simp] theorem State.setHost_pidH (v : HostRegs) : (s.setHost v).pidH = s.pidH := rfl
@[simp] theorem State.setHost_pidV (v : HostRegs) : (s.setHost v).pidV = s.pidV := rfl
@[simp] theorem State.setHost_sm (v : HostRegs) : (s.setHost v).sm = s.sm := rfl
@[simp] theorem State.setHost_host (v : HostRegs) : (s.setHost v).host = v := rfl
@[simp] theorem State.setHost_refused (v : HostRegs) : (s.setHost v).refused = s.refused := rfl
@[simp] theorem State.setHost_out1 (v : HostRegs) : (s.setHost v).out1 = s.out1 := rfl
@[simp] theorem State.setHost_out2 (v : HostRegs) : (s.setHost v).out2 = s.out2 := rfl
@[simp] theorem State.setHost_fb (v : HostRegs) : (s.setHost v).fb = s.fb := rfl
@[simp] theorem State.setHost_lost (v : HostRegs) : (s.setHost v).lost = s.lost := rfl
@[simp] theorem State.setHost_tlm (v : HostRegs) : (s.setHost v).tlm = s.tlm := rfl
@[simp] theorem State.setHost_sendLog (v : HostRegs) : (s.setHost v).sendLog = s.sendLog := rfl
@[simp] theorem State.setHost_tickIndex (v : HostRegs) : (s.setHost v).tickIndex = s.tickIndex := rfl
@[simp] theorem State.setHost_dirPos (v : HostRegs) : (s.setHost v).dirPos = s.dirPos := rfl
@[simp] theorem State.setHost_num (v : HostRegs) : (s.setHost v).num = s.num := rfl
@[simp] theorem State.setHost_actor (v : HostRegs) : (s.setHost v).actor = s.actor := rfl
@[simp] theorem State.setHost_inbox (v : HostRegs) : (s.setHost v).inbox = s.inbox := rfl
@[simp] theorem State.setHost_result (v : HostRegs) : (s.setHost v).result = s.result := rfl

/-! ### State.markRefused -/

@[simp] theorem State.markRefused_line : (s.markRefused).line = s.line := rfl
@[simp] theorem State.markRefused_mb : (s.markRefused).mb = s.mb := rfl
@[simp] theorem State.markRefused_pidH : (s.markRefused).pidH = s.pidH := rfl
@[simp] theorem State.markRefused_pidV : (s.markRefused).pidV = s.pidV := rfl
@[simp] theorem State.markRefused_sm : (s.markRefused).sm = s.sm := rfl
@[simp] theorem State.markRefused_host : (s.markRefused).host = s.host := rfl
@[simp] theorem State.markRefused_refused : (s.markRefused).refused = true := rfl
@[simp] theorem State.markRefused_out1 : (s.markRefused).out1 = s.out1 := rfl
@[simp] theorem State.markRefused_out2 : (s.markRefused).out2 = s.out2 := rfl
@[simp] theorem State.markRefused_fb : (s.markRefused).fb = s.fb := rfl
@[simp] theorem State.markRefused_lost : (s.markRefused).lost = s.lost := rfl
@[simp] theorem State.markRefused_tlm : (s.markRefused).tlm = s.tlm := rfl
@[simp] theorem State.markRefused_sendLog : (s.markRefused).sendLog = s.sendLog := rfl
@[simp] theorem State.markRefused_tickIndex : (s.markRefused).tickIndex = s.tickIndex := rfl
@[simp] theorem State.markRefused_dirPos : (s.markRefused).dirPos = s.dirPos := rfl
@[simp] theorem State.markRefused_num : (s.markRefused).num = s.num := rfl
@[simp] theorem State.markRefused_actor : (s.markRefused).actor = s.actor := rfl
@[simp] theorem State.markRefused_inbox : (s.markRefused).inbox = s.inbox := rfl
@[simp] theorem State.markRefused_result : (s.markRefused).result = s.result := rfl

/-! ### State.setResult -/

@[simp] theorem State.setResult_line (v : Result) : (s.setResult v).line = s.line := rfl
@[simp] theorem State.setResult_mb (v : Result) : (s.setResult v).mb = s.mb := rfl
@[simp] theorem State.setResult_pidH (v : Result) : (s.setResult v).pidH = s.pidH := rfl
@[simp] theorem State.setResult_pidV (v : Result) : (s.setResult v).pidV = s.pidV := rfl
@[simp] theorem State.setResult_sm (v : Result) : (s.setResult v).sm = s.sm := rfl
@[simp] theorem State.setResult_host (v : Result) : (s.setResult v).host = s.host := rfl
@[simp] theorem State.setResult_refused (v : Result) : (s.setResult v).refused = s.refused := rfl
@[simp] theorem State.setResult_out1 (v : Result) : (s.setResult v).out1 = s.out1 := rfl
@[simp] theorem State.setResult_out2 (v : Result) : (s.setResult v).out2 = s.out2 := rfl
@[simp] theorem State.setResult_fb (v : Result) : (s.setResult v).fb = s.fb := rfl
@[simp] theorem State.setResult_lost (v : Result) : (s.setResult v).lost = s.lost := rfl
@[simp] theorem State.setResult_tlm (v : Result) : (s.setResult v).tlm = s.tlm := rfl
@[simp] theorem State.setResult_sendLog (v : Result) : (s.setResult v).sendLog = s.sendLog := rfl
@[simp] theorem State.setResult_tickIndex (v : Result) : (s.setResult v).tickIndex = s.tickIndex := rfl
@[simp] theorem State.setResult_dirPos (v : Result) : (s.setResult v).dirPos = s.dirPos := rfl
@[simp] theorem State.setResult_num (v : Result) : (s.setResult v).num = s.num := rfl
@[simp] theorem State.setResult_actor (v : Result) : (s.setResult v).actor = s.actor := rfl
@[simp] theorem State.setResult_inbox (v : Result) : (s.setResult v).inbox = s.inbox := rfl
@[simp] theorem State.setResult_result (v : Result) : (s.setResult v).result = v := rfl

/-! ### State.pushFb -/

@[simp] theorem State.pushFb_line (e : FeedbackEntry) : (s.pushFb e).line = s.line := rfl
@[simp] theorem State.pushFb_mb (e : FeedbackEntry) : (s.pushFb e).mb = s.mb := rfl
@[simp] theorem State.pushFb_pidH (e : FeedbackEntry) : (s.pushFb e).pidH = s.pidH := rfl
@[simp] theorem State.pushFb_pidV (e : FeedbackEntry) : (s.pushFb e).pidV = s.pidV := rfl
@[simp] theorem State.pushFb_sm (e : FeedbackEntry) : (s.pushFb e).sm = s.sm := rfl
@[simp] theorem State.pushFb_host (e : FeedbackEntry) : (s.pushFb e).host = s.host := rfl
@[simp] theorem State.pushFb_refused (e : FeedbackEntry) : (s.pushFb e).refused = s.refused := rfl
@[simp] theorem State.pushFb_out1 (e : FeedbackEntry) : (s.pushFb e).out1 = s.out1 := rfl
@[simp] theorem State.pushFb_out2 (e : FeedbackEntry) : (s.pushFb e).out2 = s.out2 := rfl
@[simp] theorem State.pushFb_fb (e : FeedbackEntry) : (s.pushFb e).fb = s.fb ++ [e] := rfl
@[simp] theorem State.pushFb_lost (e : FeedbackEntry) : (s.pushFb e).lost = s.lost := rfl
@[simp] theorem State.pushFb_tlm (e : FeedbackEntry) : (s.pushFb e).tlm = s.tlm := rfl
@[simp] theorem State.pushFb_sendLog (e : FeedbackEntry) : (s.pushFb e).sendLog = s.sendLog := rfl
@[simp] theorem State.pushFb_tickIndex (e : FeedbackEntry) : (s.pushFb e).tickIndex = s.tickIndex := rfl
@[simp] theorem State.pushFb_dirPos (e : FeedbackEntry) : (s.pushFb e).dirPos = s.dirPos := rfl
@[simp] theorem State.pushFb_num (e : FeedbackEntry) : (s.pushFb e).num = s.num := rfl
@[simp] theorem State.pushFb_actor (e : FeedbackEntry) : (s.pushFb e).actor = s.actor := rfl
@[simp] theorem State.pushFb_inbox (e : FeedbackEntry) : (s.pushFb e).inbox = s.inbox := rfl
@[simp] theorem State.pushFb_result (e : FeedbackEntry) : (s.pushFb e).result = s.result := rfl

/-! ### State.pushLost -/

@[simp] theorem State.pushLost_line (n : BitVec 32) : (s.pushLost n).line = s.line := rfl
@[simp] theorem State.pushLost_mb (n : BitVec 32) : (s.pushLost n).mb = s.mb := rfl
@[simp] theorem State.pushLost_pidH (n : BitVec 32) : (s.pushLost n).pidH = s.pidH := rfl
@[simp] theorem State.pushLost_pidV (n : BitVec 32) : (s.pushLost n).pidV = s.pidV := rfl
@[simp] theorem State.pushLost_sm (n : BitVec 32) : (s.pushLost n).sm = s.sm := rfl
@[simp] theorem State.pushLost_host (n : BitVec 32) : (s.pushLost n).host = s.host := rfl
@[simp] theorem State.pushLost_refused (n : BitVec 32) : (s.pushLost n).refused = s.refused := rfl
@[simp] theorem State.pushLost_out1 (n : BitVec 32) : (s.pushLost n).out1 = s.out1 := rfl
@[simp] theorem State.pushLost_out2 (n : BitVec 32) : (s.pushLost n).out2 = s.out2 := rfl
@[simp] theorem State.pushLost_fb (n : BitVec 32) : (s.pushLost n).fb = s.fb := rfl
@[simp] theorem State.pushLost_lost (n : BitVec 32) : (s.pushLost n).lost = s.lost ++ [n] := rfl
@[simp] theorem State.pushLost_tlm (n : BitVec 32) : (s.pushLost n).tlm = s.tlm := rfl
@[simp] theorem State.pushLost_sendLog (n : BitVec 32) : (s.pushLost n).sendLog = s.sendLog := rfl
@[simp] theorem State.pushLost_tickIndex (n : BitVec 32) : (s.pushLost n).tickIndex = s.tickIndex := rfl
@[simp] theorem State.pushLost_dirPos (n : BitVec 32) : (s.pushLost n).dirPos = s.dirPos := rfl
@[simp] theorem State.pushLost_num (n : BitVec 32) : (s.pushLost n).num = s.num := rfl
@[simp] theorem State.pushLost_actor (n : BitVec 32) : (s.pushLost n).actor = s.actor := rfl
@[simp] theorem State.pushLost_inbox (n : BitVec 32) : (s.pushLost n).inbox = s.inbox := rfl
@[simp] theorem State.pushLost_result (n : BitVec 32) : (s.pushLost n).result = s.result := rfl

/-! ### State.pushTlm -/

@[simp] theorem State.pushTlm_line (e : FeedbackEntry) : (s.pushTlm e).line = s.line := rfl
@[simp] theorem State.pushTlm_mb (e : FeedbackEntry) : (s.pushTlm e).mb = s.mb := rfl
@[simp] theorem State.pushTlm_pidH (e : FeedbackEntry) : (s.pushTlm e).pidH = s.pidH := rfl
@[simp] theorem State.pushTlm_pidV (e : FeedbackEntry) : (s.pushTlm e).pidV = s.pidV := rfl
@[simp] theorem State.pushTlm_sm (e : FeedbackEntry) : (s.pushTlm e).sm = s.sm := rfl
@[simp] theorem State.pushTlm_host (e : FeedbackEntry) : (s.pushTlm e).host = s.host := rfl
@[simp] theorem State.pushTlm_refused (e : FeedbackEntry) : (s.pushTlm e).refused = s.refused := rfl
@[simp] theorem State.pushTlm_out1 (e : FeedbackEntry) : (s.pushTlm e).out1 = s.out1 := rfl
@[simp] theorem State.pushTlm_out2 (e : FeedbackEntry) : (s.pushTlm e).out2 = s.out2 := rfl
@[simp] theorem State.pushTlm_fb (e : FeedbackEntry) : (s.pushTlm e).fb = s.fb := rfl
@[simp] theorem State.pushTlm_lost (e : FeedbackEntry) : (s.pushTlm e).lost = s.lost := rfl
@[simp] theorem State.pushTlm_tlm (e : FeedbackEntry) : (s.pushTlm e).tlm = s.tlm ++ [e] := rfl
@[simp] theorem State.pushTlm_sendLog (e : FeedbackEntry) : (s.pushTlm e).sendLog = s.sendLog := rfl
@[simp] theorem State.pushTlm_tickIndex (e : FeedbackEntry) : (s.pushTlm e).tickIndex = s.tickIndex := rfl
@[simp] theorem State.pushTlm_dirPos (e : FeedbackEntry) : (s.pushTlm e).dirPos = s.dirPos := rfl
@[simp] theorem State.pushTlm_num (e : FeedbackEntry) : (s.pushTlm e).num = s.num := rfl
@[simp] theorem State.pushTlm_actor (e : FeedbackEntry) : (s.pushTlm e).actor = s.actor := rfl
@[simp] theorem State.pushTlm_inbox (e : FeedbackEntry) : (s.pushTlm e).inbox = s.inbox := rfl
@[simp] theorem State.pushTlm_result (e : FeedbackEntry) : (s.pushTlm e).result = s.result := rfl

/-! ### State.logSend -/

@[simp] theorem State.logSend_line (g : SendGroup) : (s.logSend g).line = s.line := rfl
@[simp] theorem State.logSend_mb (g : SendGroup) : (s.logSend g).mb = s.mb := rfl
@[simp] theorem State.logSend_pidH (g : SendGroup) : (s.logSend g).pidH = s.pidH := rfl
@[simp] theorem State.logSend_pidV (g : SendGroup) : (s.logSend g).pidV = s.pidV := rfl
@[simp] theorem State.logSend_sm (g : SendGroup) : (s.logSend g).sm = s.sm := rfl
@[simp] theorem State.logSend_host (g : SendGroup) : (s.logSend g).host = s.host := rfl
@[simp] theorem State.logSend_refused (g : SendGroup) : (s.logSend g).refused = s.refused := rfl
@[simp] theorem State.logSend_out1 (g : SendGroup) : (s.logSend g).out1 = s.out1 := rfl
@[simp] theorem State.logSend_out2 (g : SendGroup) : (s.logSend g).out2 = s.out2 := rfl
@[simp] theorem State.logSend_fb (g : SendGroup) : (s.logSend g).fb = s.fb := rfl
@[simp] theorem State.logSend_lost (g : SendGroup) : (s.logSend g).lost = s.lost := rfl
@[simp] theorem State.logSend_tlm (g : SendGroup) : (s.logSend g).tlm = s.tlm := rfl
@[simp] theorem State.logSend_sendLog (g : SendGroup) : (s.logSend g).sendLog = s.sendLog ++ [g] := rfl
@[simp] theorem State.logSend_tickIndex (g : SendGroup) : (s.logSend g).tickIndex = s.tickIndex := rfl
@[simp] theorem State.logSend_dirPos (g : SendGroup) : (s.logSend g).dirPos = s.dirPos := rfl
@[simp] theorem State.logSend_num (g : SendGroup) : (s.logSend g).num = s.num := rfl
@[simp] theorem State.logSend_actor (g : SendGroup) : (s.logSend g).actor = s.actor := rfl
@[simp] theorem State.logSend_inbox (g : SendGroup) : (s.logSend g).inbox = s.inbox := rfl
@[simp] theorem State.logSend_result (g : SendGroup) : (s.logSend g).result = s.result := rfl

/-! ### State.countTick -/

@[simp] theorem State.countTick_line : (s.countTick).line = s.line := rfl
@[simp] theorem State.countTick_mb : (s.countTick).mb = s.mb := rfl
@[simp] theorem State.countTick_pidH : (s.countTick).pidH = s.pidH := rfl
@[simp] theorem State.countTick_pidV : (s.countTick).pidV = s.pidV := rfl
@[simp] theorem State.countTick_sm : (s.countTick).sm = s.sm := rfl
@[simp] theorem State.countTick_host : (s.countTick).host = s.host := rfl
@[simp] theorem State.countTick_refused : (s.countTick).refused = s.refused := rfl
@[simp] theorem State.countTick_out1 : (s.countTick).out1 = s.out1 := rfl
@[simp] theorem State.countTick_out2 : (s.countTick).out2 = s.out2 := rfl
@[simp] theorem State.countTick_fb : (s.countTick).fb = s.fb := rfl
@[simp] theorem State.countTick_lost : (s.countTick).lost = s.lost := rfl
@[simp] theorem State.countTick_tlm : (s.countTick).tlm = s.tlm := rfl
@[simp] theorem State.countTick_sendLog : (s.countTick).sendLog = s.sendLog := rfl
@[simp] theorem State.countTick_tickIndex : (s.countTick).tickIndex = s.tickIndex + 1 := rfl
@[simp] theorem State.countTick_dirPos : (s.countTick).dirPos = s.dirPos := rfl
@[simp] theorem State.countTick_num : (s.countTick).num = s.num := rfl
@[simp] theorem State.countTick_actor : (s.countTick).actor = s.actor := rfl
@[simp] theorem State.countTick_inbox : (s.countTick).inbox = s.inbox := rfl
@[simp] theorem State.countTick_result : (s.countTick).result = s.result := rfl

/-! ### State.takeOffer -/

@[simp] theorem State.takeOffer_line (o : Offer) (rest : List Offer) : (s.takeOffer o rest).line = s.line := rfl
@[simp] theorem State.takeOffer_mb (o : Offer) (rest : List Offer) : (s.takeOffer o rest).mb = s.mb := rfl
@[simp] theorem State.takeOffer_pidH (o : Offer) (rest : List Offer) : (s.takeOffer o rest).pidH = s.pidH := rfl
@[simp] theorem State.takeOffer_pidV (o : Offer) (rest : List Offer) : (s.takeOffer o rest).pidV = s.pidV := rfl
@[simp] theorem State.takeOffer_sm (o : Offer) (rest : List Offer) : (s.takeOffer o rest).sm = s.sm := rfl
@[simp] theorem State.takeOffer_host (o : Offer) (rest : List Offer) : (s.takeOffer o rest).host = s.host := rfl
@[simp] theorem State.takeOffer_refused (o : Offer) (rest : List Offer) : (s.takeOffer o rest).refused = s.refused := rfl
@[simp] theorem State.takeOffer_out1 (o : Offer) (rest : List Offer) : (s.takeOffer o rest).out1 = s.out1 := rfl
@[simp] theorem State.takeOffer_out2 (o : Offer) (rest : List Offer) : (s.takeOffer o rest).out2 = s.out2 := rfl
@[simp] theorem State.takeOffer_fb (o : Offer) (rest : List Offer) : (s.takeOffer o rest).fb = s.fb := rfl
@[simp] theorem State.takeOffer_lost (o : Offer) (rest : List Offer) : (s.takeOffer o rest).lost = s.lost := rfl
@[simp] theorem State.takeOffer_tlm (o : Offer) (rest : List Offer) : (s.takeOffer o rest).tlm = s.tlm := rfl
@[simp] theorem State.takeOffer_sendLog (o : Offer) (rest : List Offer) : (s.takeOffer o rest).sendLog = s.sendLog := rfl
@[simp] theorem State.takeOffer_tickIndex (o : Offer) (rest : List Offer) : (s.takeOffer o rest).tickIndex = s.tickIndex := rfl
@[simp] theorem State.takeOffer_dirPos (o : Offer) (rest : List Offer) : (s.takeOffer o rest).dirPos = s.dirPos := rfl
@[simp] theorem State.takeOffer_num (o : Offer) (rest : List Offer) : (s.takeOffer o rest).num = s.num := rfl
@[simp] theorem State.takeOffer_actor (o : Offer) (rest : List Offer) : (s.takeOffer o rest).actor = o.agent := rfl
@[simp] theorem State.takeOffer_inbox (o : Offer) (rest : List Offer) : (s.takeOffer o rest).inbox = rest := rfl
@[simp] theorem State.takeOffer_result (o : Offer) (rest : List Offer) : (s.takeOffer o rest).result = s.result := rfl

/-! ### State.refuse -/

@[simp] theorem State.refuse_line (r : RefuseReason) : (s.refuse r).line = s.line := rfl
@[simp] theorem State.refuse_mb (r : RefuseReason) : (s.refuse r).mb = s.mb := rfl
@[simp] theorem State.refuse_pidH (r : RefuseReason) : (s.refuse r).pidH = s.pidH := rfl
@[simp] theorem State.refuse_pidV (r : RefuseReason) : (s.refuse r).pidV = s.pidV := rfl
@[simp] theorem State.refuse_sm (r : RefuseReason) : (s.refuse r).sm = s.sm := rfl
@[simp] theorem State.refuse_host (r : RefuseReason) : (s.refuse r).host = s.host := rfl
@[simp] theorem State.refuse_refused (r : RefuseReason) : (s.refuse r).refused = true := rfl
@[simp] theorem State.refuse_out1 (r : RefuseReason) : (s.refuse r).out1 = s.out1 := rfl
@[simp] theorem State.refuse_out2 (r : RefuseReason) : (s.refuse r).out2 = s.out2 := rfl
@[simp] theorem State.refuse_fb (r : RefuseReason) : (s.refuse r).fb = s.fb := rfl
@[simp] theorem State.refuse_lost (r : RefuseReason) : (s.refuse r).lost = s.lost := rfl
@[simp] theorem State.refuse_tlm (r : RefuseReason) : (s.refuse r).tlm = s.tlm := rfl
@[simp] theorem State.refuse_sendLog (r : RefuseReason) : (s.refuse r).sendLog = s.sendLog := rfl
@[simp] theorem State.refuse_tickIndex (r : RefuseReason) : (s.refuse r).tickIndex = s.tickIndex := rfl
@[simp] theorem State.refuse_dirPos (r : RefuseReason) : (s.refuse r).dirPos = s.dirPos := rfl
@[simp] theorem State.refuse_num (r : RefuseReason) : (s.refuse r).num = s.num := rfl
@[simp] theorem State.refuse_actor (r : RefuseReason) : (s.refuse r).actor = s.actor := rfl
@[simp] theorem State.refuse_inbox (r : RefuseReason) : (s.refuse r).inbox = s.inbox := rfl
@[simp] theorem State.refuse_result (r : RefuseReason) : (s.refuse r).result = .refused r := rfl

/-! ### State.done -/

@[simp] theorem State.done_line : (s.done).line = s.line := rfl
@[simp] theorem State.done_mb : (s.done).mb = s.mb := rfl
@[simp] theorem State.done_pidH : (s.done).pidH = s.pidH := rfl
@[simp] theorem State.done_pidV : (s.done).pidV = s.pidV := rfl
@[simp] theorem State.done_sm : (s.done).sm = s.sm := rfl
@[simp] theorem State.done_host : (s.done).host = s.host := rfl
@[simp] theorem State.done_refused : (s.done).refused = s.refused := rfl
@[simp] theorem State.done_out1 : (s.done).out1 = s.out1 := rfl
@[simp] theorem State.done_out2 : (s.done).out2 = s.out2 := rfl
@[simp] theorem State.done_fb : (s.done).fb = s.fb := rfl
@[simp] theorem State.done_lost : (s.done).lost = s.lost := rfl
@[simp] theorem State.done_tlm : (s.done).tlm = s.tlm := rfl
@[simp] theorem State.done_sendLog : (s.done).sendLog = s.sendLog := rfl
@[simp] theorem State.done_tickIndex : (s.done).tickIndex = s.tickIndex := rfl
@[simp] theorem State.done_dirPos : (s.done).dirPos = s.dirPos := rfl
@[simp] theorem State.done_num : (s.done).num = s.num := rfl
@[simp] theorem State.done_actor : (s.done).actor = s.actor := rfl
@[simp] theorem State.done_inbox : (s.done).inbox = s.inbox := rfl
@[simp] theorem State.done_result : (s.done).result = .nothing := rfl

/-! ### State.setPid: one bank is written, the other and every other field kept -/

@[simp] theorem State.setPid_line (a : Axis) (v : PidBank) : (s.setPid a v).line = s.line := by cases a <;> rfl
@[simp] theorem State.setPid_mb (a : Axis) (v : PidBank) : (s.setPid a v).mb = s.mb := by cases a <;> rfl
@[simp] theorem State.setPid_horizontal_pidH (v : PidBank) : (s.setPid .horizontal v).pidH = v := rfl
@[simp] theorem State.setPid_vertical_pidH (v : PidBank) : (s.setPid .vertical v).pidH = s.pidH := rfl
@[simp] theorem State.setPid_vertical_pidV (v : PidBank) : (s.setPid .vertical v).pidV = v := rfl
@[simp] theorem State.setPid_horizontal_pidV (v : PidBank) : (s.setPid .horizontal v).pidV = s.pidV := rfl
@[simp] theorem State.setPid_sm (a : Axis) (v : PidBank) : (s.setPid a v).sm = s.sm := by cases a <;> rfl
@[simp] theorem State.setPid_host (a : Axis) (v : PidBank) : (s.setPid a v).host = s.host := by cases a <;> rfl
@[simp] theorem State.setPid_refused (a : Axis) (v : PidBank) : (s.setPid a v).refused = s.refused := by cases a <;> rfl
@[simp] theorem State.setPid_out1 (a : Axis) (v : PidBank) : (s.setPid a v).out1 = s.out1 := by cases a <;> rfl
@[simp] theorem State.setPid_out2 (a : Axis) (v : PidBank) : (s.setPid a v).out2 = s.out2 := by cases a <;> rfl
@[simp] theorem State.setPid_fb (a : Axis) (v : PidBank) : (s.setPid a v).fb = s.fb := by cases a <;> rfl
@[simp] theorem State.setPid_lost (a : Axis) (v : PidBank) : (s.setPid a v).lost = s.lost := by cases a <;> rfl
@[simp] theorem State.setPid_tlm (a : Axis) (v : PidBank) : (s.setPid a v).tlm = s.tlm := by cases a <;> rfl
@[simp] theorem State.setPid_sendLog (a : Axis) (v : PidBank) : (s.setPid a v).sendLog = s.sendLog := by cases a <;> rfl
@[simp] theorem State.setPid_tickIndex (a : Axis) (v : PidBank) : (s.setPid a v).tickIndex = s.tickIndex := by cases a <;> rfl
@[simp] theorem State.setPid_dirPos (a : Axis) (v : PidBank) : (s.setPid a v).dirPos = s.dirPos := by cases a <;> rfl
@[simp] theorem State.setPid_num (a : Axis) (v : PidBank) : (s.setPid a v).num = s.num := by cases a <;> rfl
@[simp] theorem State.setPid_actor (a : Axis) (v : PidBank) : (s.setPid a v).actor = s.actor := by cases a <;> rfl
@[simp] theorem State.setPid_inbox (a : Axis) (v : PidBank) : (s.setPid a v).inbox = s.inbox := by cases a <;> rfl
@[simp] theorem State.setPid_result (a : Axis) (v : PidBank) : (s.setPid a v).result = s.result := by cases a <;> rfl

/-! ### State.pushOut: one stream grows, the other and every other field is kept -/

@[simp] theorem State.pushOut_line (m : Motor) (f : Frame) : (s.pushOut m f).line = s.line := by cases m <;> rfl
@[simp] theorem State.pushOut_mb (m : Motor) (f : Frame) : (s.pushOut m f).mb = s.mb := by cases m <;> rfl
@[simp] theorem State.pushOut_pidH (m : Motor) (f : Frame) : (s.pushOut m f).pidH = s.pidH := by cases m <;> rfl
@[simp] theorem State.pushOut_pidV (m : Motor) (f : Frame) : (s.pushOut m f).pidV = s.pidV := by cases m <;> rfl
@[simp] theorem State.pushOut_sm (m : Motor) (f : Frame) : (s.pushOut m f).sm = s.sm := by cases m <;> rfl
@[simp] theorem State.pushOut_host (m : Motor) (f : Frame) : (s.pushOut m f).host = s.host := by cases m <;> rfl
@[simp] theorem State.pushOut_refused (m : Motor) (f : Frame) : (s.pushOut m f).refused = s.refused := by cases m <;> rfl
@[simp] theorem State.pushOut_vertical_out1 (f : Frame) : (s.pushOut .vertical f).out1 = s.out1 ++ [f] := rfl
@[simp] theorem State.pushOut_horizontal_out1 (f : Frame) : (s.pushOut .horizontal f).out1 = s.out1 := rfl
@[simp] theorem State.pushOut_horizontal_out2 (f : Frame) : (s.pushOut .horizontal f).out2 = s.out2 ++ [f] := rfl
@[simp] theorem State.pushOut_vertical_out2 (f : Frame) : (s.pushOut .vertical f).out2 = s.out2 := rfl
@[simp] theorem State.pushOut_fb (m : Motor) (f : Frame) : (s.pushOut m f).fb = s.fb := by cases m <;> rfl
@[simp] theorem State.pushOut_lost (m : Motor) (f : Frame) : (s.pushOut m f).lost = s.lost := by cases m <;> rfl
@[simp] theorem State.pushOut_tlm (m : Motor) (f : Frame) : (s.pushOut m f).tlm = s.tlm := by cases m <;> rfl
@[simp] theorem State.pushOut_sendLog (m : Motor) (f : Frame) : (s.pushOut m f).sendLog = s.sendLog := by cases m <;> rfl
@[simp] theorem State.pushOut_tickIndex (m : Motor) (f : Frame) : (s.pushOut m f).tickIndex = s.tickIndex := by cases m <;> rfl
@[simp] theorem State.pushOut_dirPos (m : Motor) (f : Frame) : (s.pushOut m f).dirPos = s.dirPos := by cases m <;> rfl
@[simp] theorem State.pushOut_num (m : Motor) (f : Frame) : (s.pushOut m f).num = s.num := by cases m <;> rfl
@[simp] theorem State.pushOut_actor (m : Motor) (f : Frame) : (s.pushOut m f).actor = s.actor := by cases m <;> rfl
@[simp] theorem State.pushOut_inbox (m : Motor) (f : Frame) : (s.pushOut m f).inbox = s.inbox := by cases m <;> rfl
@[simp] theorem State.pushOut_result (m : Motor) (f : Frame) : (s.pushOut m f).result = s.result := by cases m <;> rfl

/-! ### The banks by axis and the streams by motor -/

@[simp] theorem State.pid_horizontal : s.pid .horizontal = s.pidH := rfl
@[simp] theorem State.pid_vertical : s.pid .vertical = s.pidV := rfl
@[simp] theorem State.out_vertical : s.out .vertical = s.out1 := rfl
@[simp] theorem State.out_horizontal : s.out .horizontal = s.out2 := rfl

theorem State.setPid_pid (a b : Axis) (v : PidBank) : (s.setPid a v).pid b = if b = a then v else s.pid b := by
  cases a <;> cases b <;> rfl

theorem State.pushOut_out (m n : Motor) (f : Frame) : (s.pushOut m f).out n = if n = m then s.out n ++ [f] else s.out n := by
  cases m <;> cases n <;> rfl

end Sys2Proof.Machine
end

