-- ==== Sys2Proof/Laws/Ops.lean ====
section
/-! SUPPORT. What each shared operation of Machine/Ops.lean does, said once: its fields, and for the operations that branch every case
they can end in. Later proofs cite these and unfold none of them. -/

namespace Sys2Proof.Machine

variable {s t u : State} {a : Agent}

/-! ### The rounded operations at the default NUM (R8) -/

@[simp] theorem fadd_standard (x y : F32) : fadd .standard x y = ieeeAdd x y := rfl
@[simp] theorem fsub_standard (x y : F32) : fsub .standard x y = ieeeSub x y := rfl
@[simp] theorem fmul_standard (x y : F32) : fmul .standard x y = ieeeMul x y := rfl
@[simp] theorem fdiv_standard (x y : F32) : fdiv .standard x y = ieeeDiv x y := rfl
@[simp] theorem fdot3_standard (u v w x y z : F32) :
    fdot3 .standard u v w x y z = ieeeAdd (ieeeAdd (ieeeMul u v) (ieeeMul w x)) (ieeeMul y z) := rfl

/-! ### The outcome of an operation -/

theorem runAs_performed (h : s.actor = a) : runAs a s t = .next t := by rw [runAs, if_pos h]

theorem runAs_refused (h : s.actor ≠ a) : runAs a s t = .next (s.refuse .wrongAgent) := by rw [runAs, if_neg h]

/-- Everything an operation of one agent can answer. -/
theorem runAs_cases (h : runAs a s t = .next u) :
    (s.actor = a ∧ u = t) ∨ (s.actor ≠ a ∧ u = s.refuse .wrongAgent) := by
  by_cases ha : s.actor = a
  · rw [runAs_performed ha] at h; cases h; exact .inl ⟨ha, rfl⟩
  · rw [runAs_refused ha] at h; cases h; exact .inr ⟨ha, rfl⟩

@[simp] theorem State.settle_ok (s t : State) : s.settle (.ok t) = t := rfl
@[simp] theorem State.settle_error (s : State) (r : RefuseReason) : s.settle (.error r) = s.refuse r := rfl

/-! ### The mailbox -/

theorem taken_of_ready (h : s.mb.ready = true) : taken s = some { x := s.mb.x, y := s.mb.y, valid := s.mb.valid } := by
  rw [taken, if_pos h]

theorem taken_of_not_ready (h : s.mb.ready = false) : taken s = none := by simp [taken, h]

/-- A Take of an empty mailbox changes nothing (R57). -/
theorem afterTake_of_not_ready (h : s.mb.ready = false) : afterTake s = s := by
  cases s with | _ line mb => cases mb; simp_all [afterTake, State.setMb]


/-! ### publish -/

@[simp] theorem publish_line (s : State) (p : Sample) : (publish p s).line = s.line := rfl
@[simp] theorem publish_mb (s : State) (p : Sample) : (publish p s).mb = { x := p.x, y := p.y, valid := p.valid, ready := true } := rfl
@[simp] theorem publish_pidH (s : State) (p : Sample) : (publish p s).pidH = s.pidH := rfl
@[simp] theorem publish_pidV (s : State) (p : Sample) : (publish p s).pidV = s.pidV := rfl
@[simp] theorem publish_sm (s : State) (p : Sample) : (publish p s).sm = s.sm := rfl
@[simp] theorem publish_host (s : State) (p : Sample) : (publish p s).host = s.host := rfl
@[simp] theorem publish_refused (s : State) (p : Sample) : (publish p s).refused = s.refused := rfl
@[simp] theorem publish_out1 (s : State) (p : Sample) : (publish p s).out1 = s.out1 := rfl
@[simp] theorem publish_out2 (s : State) (p : Sample) : (publish p s).out2 = s.out2 := rfl
@[simp] theorem publish_fb (s : State) (p : Sample) : (publish p s).fb = s.fb := rfl
@[simp] theorem publish_lost (s : State) (p : Sample) : (publish p s).lost = s.lost := rfl
@[simp] theorem publish_tlm (s : State) (p : Sample) : (publish p s).tlm = s.tlm := rfl
@[simp] theorem publish_sendLog (s : State) (p : Sample) : (publish p s).sendLog = s.sendLog := rfl
@[simp] theorem publish_tickIndex (s : State) (p : Sample) : (publish p s).tickIndex = s.tickIndex := rfl
@[simp] theorem publish_dirPos (s : State) (p : Sample) : (publish p s).dirPos = s.dirPos := rfl
@[simp] theorem publish_num (s : State) (p : Sample) : (publish p s).num = s.num := rfl
@[simp] theorem publish_actor (s : State) (p : Sample) : (publish p s).actor = s.actor := rfl
@[simp] theorem publish_inbox (s : State) (p : Sample) : (publish p s).inbox = s.inbox := rfl
@[simp] theorem publish_result (s : State) (p : Sample) : (publish p s).result = s.result := rfl

/-! ### afterTake -/

@[simp] theorem afterTake_line (s : State) : (afterTake s).line = s.line := rfl
@[simp] theorem afterTake_mb (s : State) : (afterTake s).mb = { s.mb with ready := false } := rfl
@[simp] theorem afterTake_pidH (s : State) : (afterTake s).pidH = s.pidH := rfl
@[simp] theorem afterTake_pidV (s : State) : (afterTake s).pidV = s.pidV := rfl
@[simp] theorem afterTake_sm (s : State) : (afterTake s).sm = s.sm := rfl
@[simp] theorem afterTake_host (s : State) : (afterTake s).host = s.host := rfl
@[simp] theorem afterTake_refused (s : State) : (afterTake s).refused = s.refused := rfl
@[simp] theorem afterTake_out1 (s : State) : (afterTake s).out1 = s.out1 := rfl
@[simp] theorem afterTake_out2 (s : State) : (afterTake s).out2 = s.out2 := rfl
@[simp] theorem afterTake_fb (s : State) : (afterTake s).fb = s.fb := rfl
@[simp] theorem afterTake_lost (s : State) : (afterTake s).lost = s.lost := rfl
@[simp] theorem afterTake_tlm (s : State) : (afterTake s).tlm = s.tlm := rfl
@[simp] theorem afterTake_sendLog (s : State) : (afterTake s).sendLog = s.sendLog := rfl
@[simp] theorem afterTake_tickIndex (s : State) : (afterTake s).tickIndex = s.tickIndex := rfl
@[simp] theorem afterTake_dirPos (s : State) : (afterTake s).dirPos = s.dirPos := rfl
@[simp] theorem afterTake_num (s : State) : (afterTake s).num = s.num := rfl
@[simp] theorem afterTake_actor (s : State) : (afterTake s).actor = s.actor := rfl
@[simp] theorem afterTake_inbox (s : State) : (afterTake s).inbox = s.inbox := rfl
@[simp] theorem afterTake_result (s : State) : (afterTake s).result = s.result := rfl

/-! ### sendBoth -/

@[simp] theorem sendBoth_line (s : State) (fH fV : Frame) : (sendBoth fH fV s).line = s.line := rfl
@[simp] theorem sendBoth_mb (s : State) (fH fV : Frame) : (sendBoth fH fV s).mb = s.mb := rfl
@[simp] theorem sendBoth_pidH (s : State) (fH fV : Frame) : (sendBoth fH fV s).pidH = s.pidH := rfl
@[simp] theorem sendBoth_pidV (s : State) (fH fV : Frame) : (sendBoth fH fV s).pidV = s.pidV := rfl
@[simp] theorem sendBoth_sm (s : State) (fH fV : Frame) : (sendBoth fH fV s).sm = s.sm := rfl
@[simp] theorem sendBoth_host (s : State) (fH fV : Frame) : (sendBoth fH fV s).host = s.host := rfl
@[simp] theorem sendBoth_refused (s : State) (fH fV : Frame) : (sendBoth fH fV s).refused = s.refused := rfl
@[simp] theorem sendBoth_out1 (s : State) (fH fV : Frame) : (sendBoth fH fV s).out1 = s.out1 ++ [fV] := rfl
@[simp] theorem sendBoth_out2 (s : State) (fH fV : Frame) : (sendBoth fH fV s).out2 = s.out2 ++ [fH] := rfl
@[simp] theorem sendBoth_fb (s : State) (fH fV : Frame) : (sendBoth fH fV s).fb = s.fb := rfl
@[simp] theorem sendBoth_lost (s : State) (fH fV : Frame) : (sendBoth fH fV s).lost = s.lost := rfl
@[simp] theorem sendBoth_tlm (s : State) (fH fV : Frame) : (sendBoth fH fV s).tlm = s.tlm := rfl
@[simp] theorem sendBoth_sendLog (s : State) (fH fV : Frame) : (sendBoth fH fV s).sendLog = s.sendLog ++ [.both] := rfl
@[simp] theorem sendBoth_tickIndex (s : State) (fH fV : Frame) : (sendBoth fH fV s).tickIndex = s.tickIndex := rfl
@[simp] theorem sendBoth_dirPos (s : State) (fH fV : Frame) : (sendBoth fH fV s).dirPos = s.dirPos := rfl
@[simp] theorem sendBoth_num (s : State) (fH fV : Frame) : (sendBoth fH fV s).num = s.num := rfl
@[simp] theorem sendBoth_actor (s : State) (fH fV : Frame) : (sendBoth fH fV s).actor = s.actor := rfl
@[simp] theorem sendBoth_inbox (s : State) (fH fV : Frame) : (sendBoth fH fV s).inbox = s.inbox := rfl
@[simp] theorem sendBoth_result (s : State) (fH fV : Frame) : (sendBoth fH fV s).result = s.result := rfl

/-! ### emitFeedback -/

@[simp] theorem emitFeedback_line (s : State) (r : FeedbackRecord) : (emitFeedback r s).line = s.line := rfl
@[simp] theorem emitFeedback_mb (s : State) (r : FeedbackRecord) : (emitFeedback r s).mb = s.mb := rfl
@[simp] theorem emitFeedback_pidH (s : State) (r : FeedbackRecord) : (emitFeedback r s).pidH = s.pidH := rfl
@[simp] theorem emitFeedback_pidV (s : State) (r : FeedbackRecord) : (emitFeedback r s).pidV = s.pidV := rfl
@[simp] theorem emitFeedback_sm (s : State) (r : FeedbackRecord) : (emitFeedback r s).sm = s.sm := rfl
@[simp] theorem emitFeedback_host (s : State) (r : FeedbackRecord) : (emitFeedback r s).host = s.host := rfl
@[simp] theorem emitFeedback_refused (s : State) (r : FeedbackRecord) : (emitFeedback r s).refused = s.refused := rfl
@[simp] theorem emitFeedback_out1 (s : State) (r : FeedbackRecord) : (emitFeedback r s).out1 = s.out1 := rfl
@[simp] theorem emitFeedback_out2 (s : State) (r : FeedbackRecord) : (emitFeedback r s).out2 = s.out2 := rfl
@[simp] theorem emitFeedback_fb (s : State) (r : FeedbackRecord) : (emitFeedback r s).fb = s.fb ++ [{ record := r, tick := s.tickIndex, feedbackEn := s.host.feedbackEn }] := rfl
@[simp] theorem emitFeedback_lost (s : State) (r : FeedbackRecord) : (emitFeedback r s).lost = s.lost := rfl
@[simp] theorem emitFeedback_tlm (s : State) (r : FeedbackRecord) : (emitFeedback r s).tlm = s.tlm := rfl
@[simp] theorem emitFeedback_sendLog (s : State) (r : FeedbackRecord) : (emitFeedback r s).sendLog = s.sendLog := rfl
@[simp] theorem emitFeedback_tickIndex (s : State) (r : FeedbackRecord) : (emitFeedback r s).tickIndex = s.tickIndex := rfl
@[simp] theorem emitFeedback_dirPos (s : State) (r : FeedbackRecord) : (emitFeedback r s).dirPos = s.dirPos := rfl
@[simp] theorem emitFeedback_num (s : State) (r : FeedbackRecord) : (emitFeedback r s).num = s.num := rfl
@[simp] theorem emitFeedback_actor (s : State) (r : FeedbackRecord) : (emitFeedback r s).actor = s.actor := rfl
@[simp] theorem emitFeedback_inbox (s : State) (r : FeedbackRecord) : (emitFeedback r s).inbox = s.inbox := rfl
@[simp] theorem emitFeedback_result (s : State) (r : FeedbackRecord) : (emitFeedback r s).result = s.result := rfl

/-! ### send -/

@[simp] theorem send_line (s : State) (m : Motor) (f : Frame) : (send m f s).line = s.line := by cases m <;> rfl
@[simp] theorem send_mb (s : State) (m : Motor) (f : Frame) : (send m f s).mb = s.mb := by cases m <;> rfl
@[simp] theorem send_pidH (s : State) (m : Motor) (f : Frame) : (send m f s).pidH = s.pidH := by cases m <;> rfl
@[simp] theorem send_pidV (s : State) (m : Motor) (f : Frame) : (send m f s).pidV = s.pidV := by cases m <;> rfl
@[simp] theorem send_sm (s : State) (m : Motor) (f : Frame) : (send m f s).sm = s.sm := by cases m <;> rfl
@[simp] theorem send_host (s : State) (m : Motor) (f : Frame) : (send m f s).host = s.host := by cases m <;> rfl
@[simp] theorem send_refused (s : State) (m : Motor) (f : Frame) : (send m f s).refused = s.refused := by cases m <;> rfl
@[simp] theorem send_fb (s : State) (m : Motor) (f : Frame) : (send m f s).fb = s.fb := by cases m <;> rfl
@[simp] theorem send_lost (s : State) (m : Motor) (f : Frame) : (send m f s).lost = s.lost := by cases m <;> rfl
@[simp] theorem send_tlm (s : State) (m : Motor) (f : Frame) : (send m f s).tlm = s.tlm := by cases m <;> rfl
@[simp] theorem send_sendLog (s : State) (m : Motor) (f : Frame) : (send m f s).sendLog = s.sendLog ++ [.one m] := by cases m <;> rfl
@[simp] theorem send_tickIndex (s : State) (m : Motor) (f : Frame) : (send m f s).tickIndex = s.tickIndex := by cases m <;> rfl
@[simp] theorem send_dirPos (s : State) (m : Motor) (f : Frame) : (send m f s).dirPos = s.dirPos := by cases m <;> rfl
@[simp] theorem send_num (s : State) (m : Motor) (f : Frame) : (send m f s).num = s.num := by cases m <;> rfl
@[simp] theorem send_actor (s : State) (m : Motor) (f : Frame) : (send m f s).actor = s.actor := by cases m <;> rfl
@[simp] theorem send_inbox (s : State) (m : Motor) (f : Frame) : (send m f s).inbox = s.inbox := by cases m <;> rfl
@[simp] theorem send_result (s : State) (m : Motor) (f : Frame) : (send m f s).result = s.result := by cases m <;> rfl
@[simp] theorem send_vertical_out1 (s : State) (f : Frame) : (send .vertical f s).out1 = s.out1 ++ [f] := rfl
@[simp] theorem send_vertical_out2 (s : State) (f : Frame) : (send .vertical f s).out2 = s.out2 := rfl
@[simp] theorem send_horizontal_out1 (s : State) (f : Frame) : (send .horizontal f s).out1 = s.out1 := rfl
@[simp] theorem send_horizontal_out2 (s : State) (f : Frame) : (send .horizontal f s).out2 = s.out2 ++ [f] := rfl

/-! ### emitLostIfDue -/

@[simp] theorem emitLostIfDue_lost (s : State) :
    (emitLostIfDue s).lost = if lostDue s.sm.loss then s.lost ++ [s.sm.loss] else s.lost := by
  unfold emitLostIfDue; split <;> rfl

@[simp] theorem emitLostIfDue_line (s : State) : (emitLostIfDue s).line = s.line := by unfold emitLostIfDue; split <;> rfl
@[simp] theorem emitLostIfDue_mb (s : State) : (emitLostIfDue s).mb = s.mb := by unfold emitLostIfDue; split <;> rfl
@[simp] theorem emitLostIfDue_pidH (s : State) : (emitLostIfDue s).pidH = s.pidH := by unfold emitLostIfDue; split <;> rfl
@[simp] theorem emitLostIfDue_pidV (s : State) : (emitLostIfDue s).pidV = s.pidV := by unfold emitLostIfDue; split <;> rfl
@[simp] theorem emitLostIfDue_sm (s : State) : (emitLostIfDue s).sm = s.sm := by unfold emitLostIfDue; split <;> rfl
@[simp] theorem emitLostIfDue_host (s : State) : (emitLostIfDue s).host = s.host := by unfold emitLostIfDue; split <;> rfl
@[simp] theorem emitLostIfDue_refused (s : State) : (emitLostIfDue s).refused = s.refused := by unfold emitLostIfDue; split <;> rfl
@[simp] theorem emitLostIfDue_out1 (s : State) : (emitLostIfDue s).out1 = s.out1 := by unfold emitLostIfDue; split <;> rfl
@[simp] theorem emitLostIfDue_out2 (s : State) : (emitLostIfDue s).out2 = s.out2 := by unfold emitLostIfDue; split <;> rfl
@[simp] theorem emitLostIfDue_fb (s : State) : (emitLostIfDue s).fb = s.fb := by unfold emitLostIfDue; split <;> rfl
@[simp] theorem emitLostIfDue_tlm (s : State) : (emitLostIfDue s).tlm = s.tlm := by unfold emitLostIfDue; split <;> rfl
@[simp] theorem emitLostIfDue_sendLog (s : State) : (emitLostIfDue s).sendLog = s.sendLog := by unfold emitLostIfDue; split <;> rfl
@[simp] theorem emitLostIfDue_tickIndex (s : State) : (emitLostIfDue s).tickIndex = s.tickIndex := by unfold emitLostIfDue; split <;> rfl
@[simp] theorem emitLostIfDue_dirPos (s : State) : (emitLostIfDue s).dirPos = s.dirPos := by unfold emitLostIfDue; split <;> rfl
@[simp] theorem emitLostIfDue_num (s : State) : (emitLostIfDue s).num = s.num := by unfold emitLostIfDue; split <;> rfl
@[simp] theorem emitLostIfDue_actor (s : State) : (emitLostIfDue s).actor = s.actor := by unfold emitLostIfDue; split <;> rfl
@[simp] theorem emitLostIfDue_inbox (s : State) : (emitLostIfDue s).inbox = s.inbox := by unfold emitLostIfDue; split <;> rfl
@[simp] theorem emitLostIfDue_result (s : State) : (emitLostIfDue s).result = s.result := by unfold emitLostIfDue; split <;> rfl

/-! ### Banks -/

@[simp] theorem PidBank.clear_kp (p : PidBank) : p.clear.kp = p.kp := rfl
@[simp] theorem PidBank.clear_ki (p : PidBank) : p.clear.ki = p.ki := rfl
@[simp] theorem PidBank.clear_kd (p : PidBank) : p.clear.kd = p.kd := rfl
@[simp] theorem PidBank.clear_imax (p : PidBank) : p.clear.imax = p.imax := rfl
@[simp] theorem PidBank.clear_omax (p : PidBank) : p.clear.omax = p.omax := rfl
@[simp] theorem PidBank.clear_dz (p : PidBank) : p.clear.dz = p.dz := rfl
@[simp] theorem PidBank.clear_err (p : PidBank) : p.clear.err = fzero := rfl
@[simp] theorem PidBank.clear_last (p : PidBank) : p.clear.last = fzero := rfl
@[simp] theorem PidBank.clear_integ (p : PidBank) : p.clear.integ = fzero := rfl
@[simp] theorem PidBank.clear_deriv (p : PidBank) : p.clear.deriv = fzero := rfl

end Sys2Proof.Machine
end

