-- ==== Sys2Proof/Laws/Meanings.lean ====
section
/-! SUPPORT. The inversion lemmas: every case a branching operation, the tick and the step can end in. -/

namespace Sys2Proof.Machine

variable {s t : State}

/-! ### The decoder -/

/-- Every case of one uplink byte (R100 to R105). -/
theorem consumeByte_cases (b : Byte) (s : State) :
    (isTerminator b = true ∧ s.line.li = 0 ∧ consumeByte b s = s) ∨
    (isTerminator b = true ∧ s.line.li ≠ 0 ∧
      consumeByte b s = (publish (parse s.line.text) s).setLine { s.line with li := 0 }) ∨
    (isTerminator b = false ∧ isAccepted b = true ∧ consumeByte b s = s.setLine (accept b s.line)) ∨
    (isTerminator b = false ∧ isAccepted b = false ∧ consumeByte b s = s) := by
  unfold consumeByte terminate
  cases h : isTerminator b <;> cases h' : isAccepted b <;> by_cases h'' : s.line.li = 0 <;> simp [h'']

/-- ACCEPT below 31 bytes (R101). -/
theorem accept_of_lt {b : Byte} {l : LineRegs} (h : l.li.val < 31) :
    accept b l = { lb := l.lb.set l.li.val b, li := l.li + 1 } := by
  rw [accept, if_pos (show l.li.val < Config.lineMax from h)]

/-- ACCEPT at 31 bytes (R102). -/
theorem accept_of_full {b : Byte} {l : LineRegs} (h : l.li.val = 31) : accept b l = { l with li := 0 } := by
  rw [accept, if_neg]
  rw [h]; decide

theorem accept_li {b : Byte} {l : LineRegs} (h : l.li.val < 31) : (accept b l).li.val = l.li.val + 1 := by
  rw [accept_of_lt h]
  exact Nat.mod_eq_of_lt (show l.li.val + 1 < 32 by omega)

/-! ### PID_CALC -/

/-- Every way PID_CALC answers (R131). -/
theorem pidCalc_ok_cases {n : NumConfig} {p b : PidBank} {e u : F32} (h : pidCalc n p e = .ok (b, u)) :
    isFinite e = true ∧
      ((inDeadzone e p.dz = true ∧ b = p.clear ∧ u = fzero) ∨
        (inDeadzone e p.dz = false ∧ isNaN (pidSum n p e (pidInteg n p e) (pidDeriv n p e)) = false ∧
          b = { p with err := e, integ := pidInteg n p e, deriv := pidDeriv n p e, last := e } ∧
          u = clampSym (pidSum n p e (pidInteg n p e) (pidDeriv n p e)) p.omax)) := by
  unfold pidCalc at h
  cases he : isFinite e <;> cases hd : inDeadzone e p.dz <;>
    cases hn : isNaN (pidSum n p e (pidInteg n p e) (pidDeriv n p e)) <;> simp [he, hd, hn] at h
  · exact ⟨rfl, .inr ⟨rfl, rfl, h.1.symm, h.2.symm⟩⟩
  · exact ⟨rfl, .inl ⟨rfl, h.1.symm, h.2.symm⟩⟩
  · exact ⟨rfl, .inl ⟨rfl, h.1.symm, h.2.symm⟩⟩

/-- PID_CALC keeps gains and limits (R26). -/
theorem pidCalc_keeps {n : NumConfig} {p b : PidBank} {e u : F32} (h : pidCalc n p e = .ok (b, u)) :
    b.kp = p.kp ∧ b.ki = p.ki ∧ b.kd = p.kd ∧ b.imax = p.imax ∧ b.omax = p.omax ∧ b.dz = p.dz := by
  obtain ⟨_, ⟨_, rfl, _⟩ | ⟨_, _, rfl, _⟩⟩ := pidCalc_ok_cases h <;> exact ⟨rfl, rfl, rfl, rfl, rfl, rfl⟩

theorem pidCalc_inside {n : NumConfig} {p : PidBank} {e : F32} (he : isFinite e = true) (hd : inDeadzone e p.dz = true) :
    pidCalc n p e = .ok (p.clear, fzero) := by
  simp [pidCalc, he, hd]

/-! ### ENC_MOVE -/

/-- Every way ENC_MOVE answers (R180). -/
theorem encMove_ok_cases {n : NumConfig} {d : Rotation} {m : Motor} {g : F32} {sp : Word16} {ac : Byte} {f : Frame}
    (h : encMove n d m g sp ac = .ok f) :
    isFinite g = true ∧
      ((belowStopThreshold g = true ∧ f = stopFrame m) ∨
        (belowStopThreshold g = false ∧ (pulsesOf n g).natAbs ≤ Config.pulseMax ∧
          f = moveFrame m (rotationOf d (pulsesOf n g)) sp ac (BitVec.ofNat 32 (pulsesOf n g).natAbs))) := by
  unfold encMove at h
  cases hf : isFinite g <;> cases hb : belowStopThreshold g <;>
    by_cases hp : Config.pulseMax < (pulsesOf n g).natAbs <;> simp [hf, hb, hp] at h
  · exact ⟨rfl, .inr ⟨rfl, by omega, h.symm⟩⟩
  · exact ⟨rfl, .inl ⟨rfl, h.symm⟩⟩
  · exact ⟨rfl, .inl ⟨rfl, h.symm⟩⟩

/-! ### The tick -/

/-- A regulated tick's next move: it locks, counts, or sends both moves (R155 to R157). -/
theorem moveTick_cases {oH oV : F32} (h : moveTick oH oV s = .ok t) :
    ∃ fH fV, encMove s.num s.dirPos .horizontal (fmul s.num oH Config.scale) Config.speedDefault Config.accelDefault = .ok fH ∧
      encMove s.num s.dirPos .vertical (fmul s.num oV Config.scale) Config.speedDefault Config.accelDefault = .ok fV ∧
      t = sendBoth fH fV (s.setSm { s.sm with dwell := 0#8 }) := by
  unfold moveTick at h
  split at h
  · rename_i fH fV hH hV
    cases h
    exact ⟨fH, fV, hH, hV, rfl⟩
  · cases h
  · cases h

/-- Every way a valid tick ends in a next state (R153 to R157). -/
theorem trackTick_cases {p : Sample} (h : trackTick p s = .ok t) :
    ∃ bH oH bV oV, pidCalc s.num s.pidH (f32 (centerError p.x)) = .ok (bH, oH) ∧
      pidCalc s.num s.pidV (f32 (centerError p.y)) = .ok (bV, oV) ∧
      ((bothInDeadzone (centerError p.x) (centerError p.y) s.pidH.dz s.pidV.dz = true ∧
          t = dwellTick p oH oV (regulated p bH bV oH oV s)) ∨
        (bothInDeadzone (centerError p.x) (centerError p.y) s.pidH.dz s.pidV.dz = false ∧
          moveTick oH oV (regulated p bH bV oH oV s) = .ok t)) := by
  unfold trackTick at h
  simp only at h
  split at h
  · rename_i bH oH bV oV hH hV
    refine ⟨bH, oH, bV, oV, hH, hV, ?_⟩
    split at h
    · cases h; exact .inl ⟨‹_›, rfl⟩
    · rename_i hb
      exact .inr ⟨Bool.eq_false_iff.mpr hb, h⟩
  · cases h
  · cases h

/-- Every way a tick ends in a next state (R150): disabled, without a valid sample, or with one. -/
theorem tick_cases (h : tick s = .ok t) :
    (s.sm.en = false ∧ t = s) ∨
    (s.sm.en = true ∧ (s.mb.ready = false ∨ s.mb.valid = false) ∧ t = lossTick (afterTake s)) ∨
    (s.sm.en = true ∧ s.mb.ready = true ∧ s.mb.valid = true ∧
      trackTick { x := s.mb.x, y := s.mb.y, valid := true } (afterTake s) = .ok t) := by
  unfold tick at h
  cases he : s.sm.en
  · simp [he] at h; exact .inl ⟨rfl, h.symm⟩
  · cases hr : s.mb.ready
    · simp [he, taken_of_not_ready hr] at h
      exact .inr (.inl ⟨rfl, .inl rfl, by rw [afterTake_of_not_ready hr]; exact h.symm⟩)
    · cases hv : s.mb.valid
      · simp [he, taken_of_ready hr, hv] at h
        exact .inr (.inl ⟨rfl, .inr rfl, h.symm⟩)
      · simp [he, taken_of_ready hr, hv] at h
        exact .inr (.inr ⟨rfl, rfl, rfl, h⟩)

/-- SM_TICK by CTL: its tick, done, or its refusal, either of them counted (R150, R205). -/
theorem execSmTick_cases (h : execSmTick s = .next t) :
    (s.actor ≠ .ctl ∧ t = s.refuse .wrongAgent) ∨
    (s.actor = .ctl ∧ ((∃ u, tick s.countTick = .ok u ∧ t = u.done) ∨
      ∃ r, tick s.countTick = .error r ∧ t = s.countTick.refuse r)) := by
  rcases runAs_cases h with ⟨ha, rfl⟩ | ⟨ha, rfl⟩
  · refine .inr ⟨ha, ?_⟩
    cases hk : tick s.countTick with
    | ok u => exact .inl ⟨u, rfl, rfl⟩
    | error r => exact .inr ⟨r, rfl, rfl⟩
  · exact .inl ⟨ha, rfl⟩

theorem execSmTick_of_ok {u : State} (ha : s.actor = .ctl) (h : tick s.countTick = .ok u) :
    execSmTick s = .next u.done := by
  rw [execSmTick, runAs_performed ha, h]; rfl

theorem execSmTick_of_error {r : RefuseReason} (ha : s.actor = .ctl) (h : tick s.countTick = .error r) :
    execSmTick s = .next (s.countTick.refuse r) := by
  rw [execSmTick, runAs_performed ha, h]; rfl

/-! ### Telemetry -/

/-- What a TLM_DATA does (R205): nothing where no record may be sent as the line, else the line of one that may. -/
theorem sendTelemetry_cases (x : TelemetryText) (m : TrackingMode) (s : State) :
    ((∀ e ∈ s.fb, telemetryEligible s.tlm x m e = false) ∧ sendTelemetry x m s = s) ∨
    ∃ e ∈ s.fb, telemetryEligible s.tlm x m e = true ∧ sendTelemetry x m s = s.pushTlm e := by
  unfold sendTelemetry
  cases hl : s.fb.filter (telemetryEligible s.tlm x m) with
  | nil => exact .inl ⟨fun e he => by simpa using List.filter_eq_nil_iff.1 hl e he, rfl⟩
  | cons a l =>
    have hlt := Nat.mod_lt (Config.telemetryPick s.tlm.length) (show 0 < (a :: l).length from Nat.succ_pos _)
    have hmem := List.mem_filter.1 (by rw [hl]; exact List.getElem_mem hlt)
    refine .inr ⟨_, hmem.1, hmem.2, ?_⟩
    simp only [List.getElem?_eq_getElem hlt]

/-! ### The step -/

/-- What words that spell no operation do (R79, R83): nothing, or their refusal. -/
theorem unspelled_cases (w : Words) (s : State) : unspelled w s = s ∨ unspelled w s = s.refuse .illegalOp := by
  cases w <;> simp [unspelled]

/-- Every way a step ends (R15, R22, R83): nothing offered, words that spell nothing, or the offered operation performed. -/
theorem step_cases (h : step s = .next t) :
    (s.inbox = [] ∧ t = s) ∨
    ∃ o rest, s.inbox = o :: rest ∧
      ((∃ e, decode o.words = .error e ∧ t = unspelled o.words (s.takeOffer o rest)) ∨
        ∃ i, decode o.words = .ok i ∧ exec i (s.takeOffer o rest) = .next t) := by
  unfold step nextOffer at h
  cases hi : s.inbox with
  | nil => simp [hi] at h; exact .inl ⟨rfl, h.symm⟩
  | cons o rest =>
    refine .inr ⟨o, rest, rfl, ?_⟩
    cases hd : decode o.words with
    | error e => simp [hi, hd] at h; exact .inl ⟨e, rfl, h.symm⟩
    | ok i => simp [hi, hd] at h; exact .inr ⟨i, rfl, h⟩

end Sys2Proof.Machine
end

