-- ==== Sys2Proof/Laws/Effects.lean ====
section
/-! SUPPORT. What a performed operation, and a step, can do to the state: one relation with a case per kind of change, from which the
whole-machine statements follow by cases. -/

namespace Sys2Proof.Machine

/-- A frame CTL issues to a motor: what the encoder gives, or the frame of a row (R79, R189). -/
inductive IssuedFrame (i : Instr) (m : Motor) : Frame → Prop
  | stop : IssuedFrame i m (stopFrame m)
  | enable (en : Bool) : IssuedFrame i m (enableFrame m en)
  | move (d : Rotation) (sp : Word16) (ac : Byte) (p : Word32) (h : isInternal i = false → p.toNat ≤ Config.pulseMax) :
      IssuedFrame i m (moveFrame m d sp ac p)

/-- What ENC_MOVE encodes is a frame the block issues, its pulse count in range (R180, R190). -/
theorem IssuedFrame.of_encMove {i : Instr} {n : NumConfig} {d : Rotation} {m : Motor} {g : F32} {sp : Word16} {ac : Byte} {f : Frame}
    (h : encMove n d m g sp ac = .ok f) : IssuedFrame i m f := by
  obtain ⟨-, ⟨-, rfl⟩ | ⟨-, hp, rfl⟩⟩ := encMove_ok_cases h
  · exact .stop
  · refine .move _ _ _ _ fun _ => ?_
    rw [BitVec.toNat_ofNat]
    exact (Nat.mod_le _ _).trans hp

/-- The changes an operation can make. -/
inductive Effect (i : Instr) (s : State) : State → Prop
  | refused (r : RefuseReason) : Effect i s (s.refuse r)
  | byte (b : Byte) (ha : s.actor = .ing) : Effect i s (consumeByte b s).done
  | published (x y : Word16) (v : Bool) (hi : i = .mbPublish x y v) (ha : s.actor = .ing) :
      Effect i s (publish { x := x, y := y, valid := v } s).done
  | took (ha : s.actor = .ctl) : Effect i s ((afterTake s).setResult (.sample (taken s)))
  | calculated (a : Axis) (e u : F32) (b : PidBank) (ha : s.actor = .ctl) (h : pidCalc s.num (s.pid a) e = .ok (b, u)) :
      Effect i s ((s.setPid a b).setResult (.output u))
  | pidReset (a : Axis) (ha : s.actor = .ctl) : Effect i s (s.setPid a (s.pid a).clear).done
  | gains (a : Axis) (kp ki kd : F32) (ha : s.actor = .ctl)
      (h : isFinite kp = true ∧ isFinite ki = true ∧ isFinite kd = true) :
      Effect i s (s.setPid a { s.pid a with kp := kp, ki := ki, kd := kd }).done
  | answered (r : Result) : Effect i s (s.setResult r)
  | ticked (u : State) (ha : s.actor = .ctl) (h : tick s.countTick = .ok u) : Effect i s u.done
  | tickRefused (r : RefuseReason) (ha : s.actor = .ctl) (h : tick s.countTick = .error r) : Effect i s (s.countTick.refuse r)
  | enabled (ha : s.actor = .ctl) :
      Effect i s (((s.setSm { s.sm with en := true, mode := .idle, dwell := 0#8 }).setPid .horizontal s.pidH.clear).setPid
        .vertical s.pidV.clear).done
  | disabled (ha : s.actor = .ctl) : Effect i s (stopBoth (s.setSm { s.sm with en := false, mode := .idle })).done
  | stopped (ha : s.actor = .ctl) : Effect i s (stopBoth s).done
  | sent (m : Motor) (f : Frame) (ha : s.actor = .ctl) (hf : IssuedFrame i m f) : Effect i s (send m f s).done
  | flagged (f : HostFlag) (v : Bool) (ha : s.actor = .ctl) : Effect i s (s.setHost (s.host.write f v)).done
  | line (e : FeedbackEntry) (he : e ∈ s.fb) (hf : e.feedbackEn = true) (hs : telemetrySpaced s.tlm e = true) :
      Effect i s (s.pushTlm e).done

variable {s t : State}

/-- An operation of one agent has the effect of its own state, or is refused. -/
theorem Effect.of_runAs {i : Instr} {a : Agent} {u : State} (h : runAs a s u = .next t) (hu : s.actor = a → Effect i s u) :
    Effect i s t := by
  rcases runAs_cases h with ⟨ha, rfl⟩ | ⟨_, rfl⟩
  · exact hu ha
  · exact .refused _

/-- Whatever is performed is one of the effects. -/
theorem exec_effect {i : Instr} (h : exec i s = .next t) : Effect i s t := by
  cases i with
  | decByte b => exact .of_runAs h (.byte b)
  | ulTermLf => exact .of_runAs h (.byte _)
  | ulTermCr => exact .of_runAs h (.byte _)
  | ulDigit d => exact .of_runAs h (.byte _)
  | ulComma => exact .of_runAs h (.byte _)
  | ulOther b => exact .of_runAs h (.byte b)
  | mbPublish x y v => exact .of_runAs h (.published x y v rfl)
  | mbTake => exact .of_runAs h .took
  | pidCalc a e =>
    refine .of_runAs h fun ha => ?_
    unfold calcAxis
    cases hc : pidCalc s.num (s.pid a) e with
    | ok p => exact .calculated a e p.2 p.1 ha hc
    | error r => exact .refused r
  | pidReset a => exact .of_runAs h (.pidReset a)
  | pidSetParams a kp ki kd =>
    refine .of_runAs h fun ha => ?_
    unfold setGains
    split
    · rename_i hf
      simp only [Bool.and_eq_true] at hf
      exact .gains a kp ki kd ha ⟨hf.1.1, hf.1.2, hf.2⟩
    · exact .refused _
  | pidGetParams a => exact .of_runAs h fun _ => .answered _
  | smTick =>
    rcases execSmTick_cases h with ⟨_, rfl⟩ | ⟨ha, ⟨u, hu, rfl⟩ | ⟨r, hr, rfl⟩⟩
    · exact .refused _
    · exact .ticked u ha hu
    · exact .tickRefused r ha hr
  | smEnable => exact .of_runAs h .enabled
  | smDisable => exact .of_runAs h .disabled
  | encMove m g sp ac =>
    refine .of_runAs h fun _ => ?_
    unfold answerMove
    cases encMove s.num s.dirPos m g sp ac with
    | ok f => exact .answered _
    | error r => exact .refused r
  | encStop m => exact .of_runAs h fun _ => .answered _
  | encEnable m e => exact .of_runAs h fun _ => .answered _
  | hostStopAll => exact .of_runAs h .stopped
  | hostMove m g sp ac =>
    refine .of_runAs h fun ha => ?_
    unfold directMove
    cases hm : encMove s.num s.dirPos m g sp ac with
    | ok f => exact .sent m f ha (.of_encMove hm)
    | error r => exact .refused r
  | hostMotorEnable m e => exact .of_runAs h fun ha => .sent m _ ha (.enable e)
  | hostSetFlag f v => exact .of_runAs h (.flagged f v)
  | frameMove m d sp ac p => exact .of_runAs h fun ha => .sent m _ ha (.move d sp ac p (fun h => by cases h))
  | frameStop m => exact .of_runAs h fun ha => .sent m _ ha .stop
  | frameEnable m e => exact .of_runAs h fun ha => .sent m _ ha (.enable e)
  | tlmData x m =>
    refine .of_runAs h fun _ => ?_
    rcases sendTelemetry_cases x m s with ⟨-, hs⟩ | ⟨e, he, hp, hs⟩ <;> rw [hs]
    · exact .answered _
    · simp only [telemetryEligible, Bool.and_eq_true] at hp
      exact .line e he hp.1.1.1 hp.1.1.2

/-- Everything a step can do (R15, R22, R79, R83): keep the state, pass over or refuse words that spell nothing, or have the effect of
the operation they spell. -/
theorem step_effect (h : step s = .next t) :
    (s.inbox = [] ∧ t = s) ∨
    ∃ o rest, s.inbox = o :: rest ∧
      ((∃ e, decode o.words = .error e ∧ (t = s.takeOffer o rest ∨ t = (s.takeOffer o rest).refuse .illegalOp)) ∨
        ∃ i, decode o.words = .ok i ∧ Effect i (s.takeOffer o rest) t) := by
  rcases step_cases h with h | ⟨o, rest, hi, h | ⟨i, hd, h⟩⟩
  · exact .inl h
  · obtain ⟨e, he, rfl⟩ := h
    exact .inr ⟨o, rest, hi, .inl ⟨e, he, unspelled_cases _ _⟩⟩
  · exact .inr ⟨o, rest, hi, .inr ⟨i, hd, exec_effect h⟩⟩

/-! ### The parts of a tick -/

/-- A dwell tick counts (R155) or locks (R156). -/
theorem dwellTick_cases (p : Sample) (oH oV : F32) (s : State) :
    ((s.sm.dwell + 1).toNat < 10 ∧ dwellTick p oH oV s = s.setSm { s.sm with dwell := s.sm.dwell + 1 }) ∨
    (10 ≤ (s.sm.dwell + 1).toNat ∧ dwellTick p oH oV s =
      (emitFeedback (tickRecord p oH oV .locked) (stopBoth s)).setSm { s.sm with mode := .locked, dwell := 0#8 }) := by
  unfold dwellTick
  cases hl : dwellLocks (s.sm.dwell + 1)
  · exact .inl ⟨Nat.lt_of_not_le (of_decide_eq_false hl), if_neg (by rw [hl]; exact Bool.false_ne_true)⟩
  · exact .inr ⟨of_decide_eq_true hl, if_pos hl⟩

/-- The registers of a valid tick after regulation (R153, R154). -/
theorem regulated_sm {p : Sample} {bH bV : PidBank} {oH oV : F32} :
    (regulated p bH bV oH oV s).sm = { s.sm with loss := 0#32, mode := .tracking } := rfl

/-- The registers a loss tick leaves (R158). -/
theorem lossTick_sm : (lossTick s).sm = { s.sm with loss := s.sm.loss + 1, mode := .idle, dwell := 0#8 } := by
  unfold lossTick
  simp

/-- The lost events of a loss tick (R159). -/
theorem lossTick_lost : (lossTick s).lost = s.lost ∨ (lossTick s).lost = s.lost ++ [s.sm.loss + 1] := by
  unfold lossTick emitLostIfDue
  split
  · exact .inr rfl
  · exact .inl rfl

/-- A loss tick touches no other output and no bank (R158). -/
theorem lossTick_frame : (lossTick s).fb = s.fb ∧ (lossTick s).out1 = s.out1 ∧ (lossTick s).out2 = s.out2 ∧
    (lossTick s).sendLog = s.sendLog ∧ (lossTick s).pidH = s.pidH ∧ (lossTick s).pidV = s.pidV ∧ (lossTick s).mb = s.mb ∧
    (lossTick s).host = s.host ∧ (lossTick s).line = s.line := by
  unfold lossTick
  simp

/-- What a tick does to the registers of the tracking state machine (R150 to R158). -/
theorem tick_sm (h : tick s = .ok t) :
    (s.sm.en = false ∧ t.sm = s.sm) ∨
    (s.sm.en = true ∧ t.sm = { en := true, mode := .idle, dwell := 0#8, loss := s.sm.loss + 1 }) ∨
    (s.sm.en = true ∧ t.sm = { en := true, mode := .tracking, dwell := 0#8, loss := 0#32 }) ∨
    (s.sm.en = true ∧ (s.sm.dwell + 1).toNat < 10 ∧
      t.sm = { en := true, mode := .tracking, dwell := s.sm.dwell + 1, loss := 0#32 }) ∨
    (s.sm.en = true ∧ 10 ≤ (s.sm.dwell + 1).toNat ∧ t.sm = { en := true, mode := .locked, dwell := 0#8, loss := 0#32 }) := by
  rcases tick_cases h with ⟨he, rfl⟩ | ⟨he, _, rfl⟩ | ⟨he, _, _, h4⟩
  · exact .inl ⟨he, rfl⟩
  · exact .inr (.inl ⟨he, by rw [lossTick_sm]; simp [he]⟩)
  · obtain ⟨bH, oH, bV, oV, _, _, ⟨_, rfl⟩ | ⟨_, h5⟩⟩ := trackTick_cases h4
    · rcases dwellTick_cases ⟨s.mb.x, s.mb.y, true⟩ oH oV (regulated ⟨s.mb.x, s.mb.y, true⟩ bH bV oH oV (afterTake s)) with
        ⟨hl, h6⟩ | ⟨hl, h6⟩
      · refine .inr (.inr (.inr (.inl ⟨he, hl, ?_⟩)))
        rw [h6, State.setSm_sm, regulated_sm]
        simp [he]
      · refine .inr (.inr (.inr (.inr ⟨he, hl, ?_⟩)))
        rw [h6, State.setSm_sm, regulated_sm]
        simp [he]
    · obtain ⟨fH, fV, _, _, rfl⟩ := moveTick_cases h5
      exact .inr (.inr (.inl ⟨he, by simp [regulated, he]⟩))

/-- A feedback entry of this tick, from the sample in the mailbox (R154, R204). -/
def EntryOfTick (s : State) (x : FeedbackEntry) : Prop :=
  x.tick = s.tickIndex ∧ x.feedbackEn = s.host.feedbackEn ∧ x.record.x = s.mb.x.toInt ∧ x.record.y = s.mb.y.toInt ∧
    x.record.dx = s.mb.x.toInt - 120 ∧ x.record.dy = s.mb.y.toInt - 120

/-- What a tick does to the output streams: at most one lost event, feedback entries of this tick where a valid sample was
pending, and no frame or one to each motor (R154 to R159, R162). -/
theorem tick_outputs (i : Instr) (h : tick s = .ok t) :
    ∃ l e, t.lost = s.lost ++ l ∧ t.fb = s.fb ++ e ∧ (∀ x ∈ e, s.mb.valid = true ∧ EntryOfTick s x) ∧
      ((t.out1 = s.out1 ∧ t.out2 = s.out2 ∧ t.sendLog = s.sendLog) ∨
        ∃ fH fV, IssuedFrame i .horizontal fH ∧ IssuedFrame i .vertical fV ∧ t.out1 = s.out1 ++ [fV] ∧ t.out2 = s.out2 ++ [fH] ∧ t.sendLog = s.sendLog ++ [.both]) := by
  rcases tick_cases h with ⟨_, rfl⟩ | ⟨_, _, rfl⟩ | ⟨_, _, hv, h4⟩
  · exact ⟨[], [], by simp⟩
  · obtain ⟨h1, h2, h3, h4, -⟩ := lossTick_frame (s := afterTake s)
    refine (lossTick_lost (s := afterTake s)).elim (fun hl => ⟨[], [], ?_⟩) fun hl => ⟨[s.sm.loss + 1], [], ?_⟩ <;>
      simp [hl, h1, h2, h3, h4]
  · have hentry : ∀ oH oV m, EntryOfTick s
        { record := tickRecord { x := s.mb.x, y := s.mb.y, valid := true } oH oV m, tick := s.tickIndex, feedbackEn := s.host.feedbackEn } :=
      fun _ _ _ => ⟨rfl, rfl, rfl, rfl, rfl, rfl⟩
    obtain ⟨bH, oH, bV, oV, _, _, ⟨_, rfl⟩ | ⟨_, h5⟩⟩ := trackTick_cases h4
    · rcases dwellTick_cases ⟨s.mb.x, s.mb.y, true⟩ oH oV (regulated ⟨s.mb.x, s.mb.y, true⟩ bH bV oH oV (afterTake s)) with
        ⟨-, h6⟩ | ⟨-, h6⟩
      · rw [h6]
        exact ⟨[], [_], (List.append_nil _).symm, rfl, by simpa using ⟨hv, hentry _ _ _⟩, .inl ⟨rfl, rfl, rfl⟩⟩
      · rw [h6]
        refine ⟨[], [_, _], (List.append_nil _).symm, (List.append_assoc _ [_] [_]), ?_,
          .inr ⟨stopFrame .horizontal, stopFrame .vertical, .stop, .stop, rfl, rfl, rfl⟩⟩
        simpa using ⟨⟨hv, hentry _ _ _⟩, hv, hentry _ _ _⟩
    · obtain ⟨fH, fV, hH, hV, rfl⟩ := moveTick_cases h5
      exact ⟨[], [_], (List.append_nil _).symm, rfl, by simpa using ⟨hv, hentry _ _ _⟩,
        .inr ⟨fH, fV, .of_encMove hH, .of_encMove hV, rfl, rfl, rfl⟩⟩

/-- What a tick does to a bank: nothing, or its PID_CALC (R154, R158). -/
theorem tick_pid (h : tick s = .ok t) (a : Axis) :
    t.pid a = s.pid a ∨ ∃ e u, pidCalc s.num (s.pid a) e = .ok (t.pid a, u) := by
  rcases tick_cases h with ⟨_, rfl⟩ | ⟨_, _, rfl⟩ | ⟨_, _, _, h4⟩
  · exact .inl rfl
  · obtain ⟨-, -, -, -, h1, h2, -⟩ := lossTick_frame (s := afterTake s)
    left
    cases a
    · exact h1
    · exact h2
  · obtain ⟨bH, oH, bV, oV, hH, hV, h6⟩ := trackTick_cases h4
    have ht : t.pidH = bH ∧ t.pidV = bV := by
      rcases h6 with ⟨_, rfl⟩ | ⟨_, h5⟩
      · rcases dwellTick_cases ⟨s.mb.x, s.mb.y, true⟩ oH oV (regulated ⟨s.mb.x, s.mb.y, true⟩ bH bV oH oV (afterTake s)) with
        ⟨-, h6⟩ | ⟨-, h6⟩
        · rw [h6]; exact ⟨rfl, rfl⟩
        · rw [h6]; exact ⟨rfl, rfl⟩
      · obtain ⟨fH, fV, _, _, rfl⟩ := moveTick_cases h5
        exact ⟨rfl, rfl⟩
    right
    cases a
    · exact ⟨_, oH, by rw [show t.pid .horizontal = bH from ht.1]; exact hH⟩
    · exact ⟨_, oV, by rw [show t.pid .vertical = bV from ht.2]; exact hV⟩

/-- What a tick leaves alone whatever it does; of the mailbox it clears READY at most (R151, R152, R158). -/
theorem tick_frame (h : tick s = .ok t) :
    t.line = s.line ∧ t.host = s.host ∧ t.tlm = s.tlm ∧ t.tickIndex = s.tickIndex ∧ t.dirPos = s.dirPos ∧ t.num = s.num ∧ t.actor = s.actor ∧
      t.inbox = s.inbox ∧ t.refused = s.refused ∧ (t.mb = s.mb ∨ (s.sm.en = true ∧ t.mb = { s.mb with ready := false })) := by
  rcases tick_cases h with ⟨_, rfl⟩ | ⟨he, _, rfl⟩ | ⟨he, _, _, h4⟩
  · exact ⟨rfl, rfl, rfl, rfl, rfl, rfl, rfl, rfl, rfl, .inl rfl⟩
  · unfold lossTick
    simp [he]
  · obtain ⟨bH, oH, bV, oV, _, _, ⟨_, rfl⟩ | ⟨_, h5⟩⟩ := trackTick_cases h4
    · rcases dwellTick_cases ⟨s.mb.x, s.mb.y, true⟩ oH oV (regulated ⟨s.mb.x, s.mb.y, true⟩ bH bV oH oV (afterTake s)) with
        ⟨-, h6⟩ | ⟨-, h6⟩
      · rw [h6]; exact ⟨rfl, rfl, rfl, rfl, rfl, rfl, rfl, rfl, rfl, .inr ⟨he, rfl⟩⟩
      · rw [h6]; exact ⟨rfl, rfl, rfl, rfl, rfl, rfl, rfl, rfl, rfl, .inr ⟨he, rfl⟩⟩
    · obtain ⟨fH, fV, _, _, rfl⟩ := moveTick_cases h5
      exact ⟨rfl, rfl, rfl, rfl, rfl, rfl, rfl, rfl, rfl, .inr ⟨he, rfl⟩⟩

/-! ### The streams of the motors -/

/-- One uplink byte touches no component of the control domain and no output (R20, R60). -/
theorem consumeByte_frame (b : Byte) (s : State) :
    (consumeByte b s).pidH = s.pidH ∧ (consumeByte b s).pidV = s.pidV ∧ (consumeByte b s).sm = s.sm ∧ (consumeByte b s).host = s.host ∧
      (consumeByte b s).out1 = s.out1 ∧ (consumeByte b s).out2 = s.out2 ∧ (consumeByte b s).sendLog = s.sendLog ∧
      (consumeByte b s).fb = s.fb ∧ (consumeByte b s).lost = s.lost ∧ (consumeByte b s).tlm = s.tlm ∧
      (consumeByte b s).tickIndex = s.tickIndex ∧ (consumeByte b s).dirPos = s.dirPos ∧ (consumeByte b s).num = s.num ∧
      (consumeByte b s).refused = s.refused := by
  rcases consumeByte_cases b s with ⟨_, _, h⟩ | ⟨_, _, h⟩ | ⟨_, _, h⟩ | ⟨_, _, h⟩ <;> rw [h] <;> simp

/-- No operation writes NUM (R7). -/
theorem Effect.num_eq {i : Instr} (h : Effect i s t) : t.num = s.num := by
  cases h with
  | byte b _ => exact (consumeByte_frame b s).2.2.2.2.2.2.2.2.2.2.2.2.1
  | ticked u _ hu => exact (tick_frame hu).2.2.2.2.2.1
  | calculated a => cases a <;> rfl
  | pidReset a => cases a <;> rfl
  | gains a => cases a <;> rfl
  | sent m => cases m <;> rfl
  | _ => rfl

/-- What an operation issues: nothing, a frame to one motor, or one to each (R13, R150). -/
theorem Effect.issues {i : Instr} (h : Effect i s t) :
    (t.out1 = s.out1 ∧ t.out2 = s.out2 ∧ t.sendLog = s.sendLog) ∨
    (∃ f, IssuedFrame i .vertical f ∧ t.out1 = s.out1 ++ [f] ∧ t.out2 = s.out2 ∧ t.sendLog = s.sendLog ++ [.one .vertical]) ∨
    (∃ f, IssuedFrame i .horizontal f ∧ t.out1 = s.out1 ∧ t.out2 = s.out2 ++ [f] ∧ t.sendLog = s.sendLog ++ [.one .horizontal]) ∨
    ∃ fH fV, IssuedFrame i .horizontal fH ∧ IssuedFrame i .vertical fV ∧ t.out1 = s.out1 ++ [fV] ∧ t.out2 = s.out2 ++ [fH] ∧
      t.sendLog = s.sendLog ++ [.both] := by
  cases h with
  | byte b _ =>
    obtain ⟨-, -, -, -, h1, h2, h3, -⟩ := consumeByte_frame b s
    exact .inl ⟨h1, h2, h3⟩
  | ticked u _ hu =>
    obtain ⟨-, -, -, -, -, h | h⟩ := tick_outputs i hu
    · exact .inl h
    · exact .inr (.inr (.inr h))
  | disabled _ => exact .inr (.inr (.inr ⟨_, _, .stop, .stop, rfl, rfl, rfl⟩))
  | stopped _ => exact .inr (.inr (.inr ⟨_, _, .stop, .stop, rfl, rfl, rfl⟩))
  | sent m f _ hf =>
    cases m
    · exact .inr (.inl ⟨f, hf, rfl, rfl, rfl⟩)
    · exact .inr (.inr (.inl ⟨f, hf, rfl, rfl, rfl⟩))
  | calculated a => cases a <;> exact .inl ⟨rfl, rfl, rfl⟩
  | pidReset a => cases a <;> exact .inl ⟨rfl, rfl, rfl⟩
  | gains a => cases a <;> exact .inl ⟨rfl, rfl, rfl⟩
  | _ => exact .inl ⟨rfl, rfl, rfl⟩

end Sys2Proof.Machine
end

