-- ==== Sys2Proof/Laws/PerInstr.lean ====
section
/-! SUPPORT. Family EncodedShape: the shape of each operation's words, one lemma per constructor of Instr. -/

namespace Sys2Proof.Laws.EncodedShape

/-- An operation word carries as many payload words as its OPC fixes (R84); a frame is 13, 5 or 6 bytes and ends in the checksum
(R56, R77); a telemetry line ends in CR LF (R80). -/
def Statement (i : Instr) : Prop :=
  match encode i with
  | .uplink _ => True
  | .op w p => p.length = payloadCount (w.extractLsb' 8 8)
  | .send f => (f.length = 13 ∨ f.length = 5 ∨ f.length = 6) ∧ f.getLast? = some Config.checksum
  | .telemetry t => [Config.chCr, Config.chLf] <:+ t

/-- The OPC of an operation word. -/
theorem opc_append (opc sel : Byte) : (opc ++ sel).extractLsb' 8 8 = opc := by
  rw [BitVec.extractLsb'_append_eq_left]

theorem decByte (b : Byte) : Statement (.decByte b) := by simp [Statement, encode, opWord, opc_append, payloadCount]
theorem mbPublish (x y : Word16) (valid : Bool) : Statement (.mbPublish x y valid) := by simp [Statement, encode, opWord, payloadCount]
theorem mbTake : Statement .mbTake := by simp [Statement, encode, opWord, payloadCount]
theorem pidCalc (a : Axis) (e : F32) : Statement (.pidCalc a e) := by simp [Statement, encode, opWord, opc_append, payloadCount]
theorem pidReset (a : Axis) : Statement (.pidReset a) := by simp [Statement, encode, opWord, opc_append, payloadCount]
theorem pidSetParams (a : Axis) (kp ki kd : F32) : Statement (.pidSetParams a kp ki kd) := by simp [Statement, encode, opWord, opc_append, payloadCount]
theorem pidGetParams (a : Axis) : Statement (.pidGetParams a) := by simp [Statement, encode, opWord, opc_append, payloadCount]
theorem smTick : Statement .smTick := by simp [Statement, encode, opWord, payloadCount]
theorem smEnable : Statement .smEnable := by simp [Statement, encode, opWord, payloadCount]
theorem smDisable : Statement .smDisable := by simp [Statement, encode, opWord, payloadCount]
theorem encMove (m : Motor) (angle : F32) (speed : Word16) (accel : Byte) : Statement (.encMove m angle speed accel) := by simp [Statement, encode, opWord, opc_append, payloadCount]
theorem encStop (m : Motor) : Statement (.encStop m) := by simp [Statement, encode, opWord, opc_append, payloadCount]
theorem encEnable (m : Motor) (enable : Bool) : Statement (.encEnable m enable) := by simp [Statement, encode, opWord, opc_append, payloadCount]
theorem hostStopAll : Statement .hostStopAll := by simp [Statement, encode, opWord, payloadCount]
theorem hostMove (m : Motor) (angle : F32) (speed : Word16) (accel : Byte) : Statement (.hostMove m angle speed accel) := by simp [Statement, encode, opWord, opc_append, payloadCount]
theorem hostMotorEnable (m : Motor) (enable : Bool) : Statement (.hostMotorEnable m enable) := by simp [Statement, encode, opWord, opc_append, payloadCount]
theorem hostSetFlag (f : HostFlag) (value : Bool) : Statement (.hostSetFlag f value) := by simp [Statement, encode, opWord, opc_append, payloadCount]
theorem frameMove (m : Motor) (dir : Rotation) (speed : Word16) (accel : Byte) (pulses : Word32) :
    Statement (.frameMove m dir speed accel pulses) := by simp [Statement, encode, moveFrame]
theorem frameStop (m : Motor) : Statement (.frameStop m) := by simp [Statement, encode, stopFrame]
theorem frameEnable (m : Motor) (enable : Bool) : Statement (.frameEnable m enable) := by simp [Statement, encode, enableFrame]
theorem ulTermLf : Statement .ulTermLf := by simp [Statement, encode]
theorem ulTermCr : Statement .ulTermCr := by simp [Statement, encode]
theorem ulDigit (d : BitVec 4) : Statement (.ulDigit d) := by simp [Statement, encode]
theorem ulComma : Statement .ulComma := by simp [Statement, encode]
theorem ulOther (b : Byte) : Statement (.ulOther b) := by simp [Statement, encode]
theorem tlmData (text : TelemetryText) (mode : TrackingMode) : Statement (.tlmData text mode) := by
  refine ⟨dataTag ++ Config.chComma :: text.tx ++ Config.chComma :: text.ty ++ Config.chComma :: text.dx ++ Config.chComma :: text.dy ++
    Config.chComma :: text.pidH ++ Config.chComma :: text.pidV ++ Config.chComma :: [modeDigit mode], ?_⟩
  simp [telemetryLine]

end Sys2Proof.Laws.EncodedShape
end

