-- ==== Sys2Proof/Tests/Slice0.lean ====
section
/-! SUPPORT. Tests of the model. Expected words and results are those of spec/30_encoding.md and spec/95_test_vectors.md (the vector
is named at each test); the last part shows, for every statement with hypotheses, concrete inputs that meet them. -/

open Sys2Proof Sys2Proof.Machine Sys2Proof.Statements

namespace Sys2Proof.Tests

/-! ### Small states -/

/-- VCFG of 95_test_vectors.md. -/
def vcfg : PidConfig := ⟨0x41200000#32, 0x3F000000#32, 0x40000000#32, 0x43480000#32, 0x447A0000#32, 5#8⟩

/-- Power-on with VCFG on both axes, DIR_POS = 0x01 and the default NUM. -/
def base : State := State.powerOn ⟨vcfg, vcfg, .cw, .standard, false, false⟩

/-- ING performs. -/
def ing : State := { base with actor := .ing }

/-- Enabled, performed by CTL. -/
def enabled : State := { base with sm := { base.sm with en := true } }

/-- Enabled, with a pending sample. -/
def pending (x y : Word16) (valid : Bool) : State := { enabled with mb := { x := x, y := y, valid := valid, ready := true } }

/-- The line registers holding these bytes. -/
def lineOf (bytes : List Byte) : LineRegs :=
  { lb := Vector.ofFn fun i => bytes.getD i.val 0#8, li := Fin.ofNat Config.lineCap bytes.length }

/-- ING with a line accumulated. -/
def withLine (bytes : List Byte) : State := { ing with line := lineOf bytes }

/-- A bank of VCFG with these transient registers. -/
def bank (err last integ deriv : F32) : PidBank :=
  { PidBank.powerOn vcfg with err := err, last := last, integ := integ, deriv := deriv }

/-- An entry of FB emitted at this tick. -/
def entryAt (tick : Nat) (on : Bool) : FeedbackEntry :=
  { record := ⟨121, 118, 1, -2, 0, 0, .tracking⟩, tick := tick, feedbackEn := on }

/-- The next state, where there is one. -/
def next? (o : Host.Outcome State Fault Refusal) : Option State :=
  match o with
  | .next t => some t
  | .fault _ => none
  | .refused _ => none

/-- "113,114". -/
def line113 : List Byte := [0x31, 0x31, 0x33, 0x2C, 0x31, 0x31, 0x34]

/-- The frame `02 FD 00 04 B0 05 00 00 00 08 00 00 6B` of vector T-1. -/
def frameT1H : Frame := [0x02, 0xFD, 0x00, 0x04, 0xB0, 0x05, 0x00, 0x00, 0x00, 0x08, 0x00, 0x00, 0x6B]

/-- The frame `01 FD 00 04 B0 05 00 00 00 07 00 00 6B` of vector T-1. -/
def frameT1V : Frame := [0x01, 0xFD, 0x00, 0x04, 0xB0, 0x05, 0x00, 0x00, 0x00, 0x07, 0x00, 0x00, 0x6B]

/-! ### Ill-formed terms are refused by the check -/

theorem test_wf_refuses_digit_ten : (Instr.ulDigit 10).wf = false := by decide
theorem test_wf_refuses_other_digit : (Instr.ulOther 0x30).wf = false := by decide
theorem test_wf_refuses_other_comma : (Instr.ulOther 0x2C).wf = false := by decide
theorem test_wf_refuses_other_lf : (Instr.ulOther 0x0A).wf = false := by decide
theorem test_wf_refuses_other_cr : (Instr.ulOther 0x0D).wf = false := by decide
theorem test_wf_refuses_empty_text : (Instr.tlmData ⟨[], [0x31], [0x31], [0x31], [0x31], [0x31]⟩ .idle).wf = false := by decide
theorem test_wf_refuses_comma_text : (Instr.tlmData ⟨[0x31], [0x2C], [0x31], [0x31], [0x31], [0x31]⟩ .idle).wf = false := by decide
theorem test_wf_refuses_cr_text : (Instr.tlmData ⟨[0x31], [0x31], [0x0D], [0x31], [0x31], [0x31]⟩ .idle).wf = false := by decide
theorem test_wf_refuses_lf_text : (Instr.tlmData ⟨[0x31], [0x31], [0x31], [0x0A], [0x31], [0x31]⟩ .idle).wf = false := by decide
/-- R53: 0x80 is no ASCII character. -/
theorem test_wf_refuses_non_ascii_text :
    (Instr.tlmData ⟨[0x31], [0x31], [0x31], [0x31], [0x80], [0x31]⟩ .idle).wf = false := by decide

/-! ### Every operation's words, written out from the encodings of R71, R74 to R76, R80, R82 -/

theorem test_decode_dec_byte : decode (.op 0x0131#16 []) = .ok (.decByte 0x31#8) := by decide
theorem test_decode_mb_publish :
    decode (.op 0x0200#16 [0x00000071#32, 0x00000072#32, 0x00000001#32]) = .ok (.mbPublish 113#16 114#16 true) := by decide
theorem test_decode_mb_take : decode (.op 0x0300#16 []) = .ok .mbTake := by decide
theorem test_decode_pid_calc : decode (.op 0x1000#16 [0x42F00000#32]) = .ok (.pidCalc .horizontal 0x42F00000#32) := by decide
theorem test_decode_pid_reset : decode (.op 0x1101#16 []) = .ok (.pidReset .vertical) := by decide
theorem test_decode_pid_set_params :
    decode (.op 0x1201#16 [0x3F800000#32, 0x3F000000#32, 0x40000000#32]) =
      .ok (.pidSetParams .vertical 0x3F800000#32 0x3F000000#32 0x40000000#32) := by decide
theorem test_decode_pid_get_params : decode (.op 0x1300#16 []) = .ok (.pidGetParams .horizontal) := by decide
theorem test_decode_sm_tick : decode (.op 0x2000#16 []) = .ok .smTick := by decide
theorem test_decode_sm_enable : decode (.op 0x2100#16 []) = .ok .smEnable := by decide
theorem test_decode_sm_disable : decode (.op 0x2200#16 []) = .ok .smDisable := by decide
theorem test_decode_enc_move :
    decode (.op 0x3001#16 [0x41100000#32, 0x00001234#32, 0x00000007#32]) =
      .ok (.encMove .vertical 0x41100000#32 0x1234#16 0x07#8) := by decide
theorem test_decode_enc_stop : decode (.op 0x3101#16 []) = .ok (.encStop .vertical) := by decide
theorem test_decode_enc_enable : decode (.op 0x3202#16 [0x00000001#32]) = .ok (.encEnable .horizontal true) := by decide
theorem test_decode_host_stop_all : decode (.op 0x4000#16 []) = .ok .hostStopAll := by decide
theorem test_decode_host_move :
    decode (.op 0x4102#16 [0x42340000#32, 0x000004B0#32, 0x00000005#32]) =
      .ok (.hostMove .horizontal 0x42340000#32 0x04B0#16 0x05#8) := by decide
theorem test_decode_host_motor_enable : decode (.op 0x4202#16 [0x00000000#32]) = .ok (.hostMotorEnable .horizontal false) := by
  decide
theorem test_decode_host_set_flag : decode (.op 0x4300#16 [0x00000001#32]) = .ok (.hostSetFlag .feedbackEn true) := by decide
theorem test_decode_frame_move :
    decode (.send [0x01, 0xFD, 0x00, 0x12, 0x34, 0x07, 0x01, 0x02, 0x03, 0x04, 0x00, 0x00, 0x6B]) =
      .ok (.frameMove .vertical .ccw 0x1234#16 0x07#8 0x01020304#32) := by decide
theorem test_decode_frame_stop : decode (.send [0x02, 0xFE, 0x98, 0x00, 0x6B]) = .ok (.frameStop .horizontal) := by decide
theorem test_decode_frame_enable :
    decode (.send [0x01, 0xF3, 0xAB, 0x01, 0x00, 0x6B]) = .ok (.frameEnable .vertical true) := by decide
theorem test_decode_ul_term_lf : decode (.uplink 0x0A#8) = .ok .ulTermLf := by decide
theorem test_decode_ul_term_cr : decode (.uplink 0x0D#8) = .ok .ulTermCr := by decide
theorem test_decode_ul_digit : decode (.uplink 0x39#8) = .ok (.ulDigit 9#4) := by decide
theorem test_decode_ul_comma : decode (.uplink 0x2C#8) = .ok .ulComma := by decide
theorem test_decode_ul_other : decode (.uplink 0x3A#8) = .ok (.ulOther 0x3A#8) := by decide
/-- "DATA,1,2,3,4,5,6,2" and CR LF. -/
theorem test_decode_tlm_data :
    decode (.telemetry [0x44, 0x41, 0x54, 0x41, 0x2C, 0x31, 0x2C, 0x32, 0x2C, 0x33, 0x2C, 0x34, 0x2C, 0x35, 0x2C, 0x36, 0x2C,
      0x32, 0x0D, 0x0A]) = .ok (.tlmData ⟨[0x31], [0x32], [0x33], [0x34], [0x35], [0x36]⟩ .locked) := by decide

/-- Vectors H-6 and H-7, and R84: a selector outside its row, a payload word missing or in excess. -/
theorem test_decode_refuses :
    decode (.op 0x4302#16 [1#32]) = .error .badSelector ∧ decode (.op 0x1002#16 [0#32]) = .error .badSelector ∧
    decode (.op 0x1000#16 []) = .error .missingPayload ∧ decode (.op 0x2000#16 [0#32]) = .error .extraPayload ∧
    decode (.op 0x0000#16 []) = .error .unknownOpc ∧ decode (.op 0x4300#16 [2#32]) = .error .payloadWidth := by decide

/-- R79: bytes with another constant byte, id or length are no frame of this block. -/
theorem test_decode_refuses_frames :
    decode (.send [0x02, 0xFE, 0x98, 0x00, 0x6A]) = .error .badFrame ∧
    decode (.send [0x03, 0xFE, 0x98, 0x00, 0x6B]) = .error .badFrame ∧
    decode (.send [0x01, 0xF3, 0xAB, 0x02, 0x00, 0x6B]) = .error .badFrame ∧ decode (.send []) = .error .badFrame := by decide

/-- The table's numbering: byte 0 of a frame holds the highest bits, payload words stand above bit 16. -/
theorem test_table_numbering :
    decodeTableWord 40 0x02FE98006B = some (.frameStop .horizontal) ∧
    decodeTableWord 104 0x02FD0104B00500000C8000006B = some (.frameMove .horizontal .cw 0x04B0#16 0x05#8 3200#32) ∧
    decodeTableWord 8 0x37 = some (.ulDigit 7#4) ∧ decodeTableWord 16 0x2100 = some .smEnable ∧
    decodeTableWord 16 0x3C0000001000 = some (.pidCalc .horizontal 0x3C000000#32) := by decide

/-! ### The decoder's operations -/

/-- D-1 at its terminator: "113,114" is published as (113, 114, valid) and the line is empty. -/
theorem test_dec_byte_terminates :
    (next? (exec (.decByte 0x0A#8) (withLine line113))).map (fun t => (t.mb, t.line.li)) =
      some ({ x := 113#16, y := 114#16, valid := true, ready := true }, 0) := by decide

/-- D-18: the 32nd digit empties the line. -/
theorem test_dec_byte_overflows :
    (next? (exec (.decByte 0x31#8) (withLine (List.replicate 31 0x31#8)))).map (fun t => (t.mb.ready, t.line.li)) =
      some (false, 0) := by decide

/-- D-3: "0,0" is the invalid sentinel. -/
theorem test_ul_term_cr_sentinel :
    (next? (exec .ulTermCr (withLine [0x30, 0x2C, 0x30]))).map (·.mb) = some { x := 0, y := 0, valid := false, ready := true } := by
  decide

/-- D-10: "0,300" is clamped. -/
theorem test_ul_term_lf_clamps :
    (next? (exec .ulTermLf (withLine [0x30, 0x2C, 0x33, 0x30, 0x30]))).map (·.mb) =
      some { x := 0, y := 240, valid := true, ready := true } := by decide

/-- D-21: a terminator on an empty line publishes nothing. -/
theorem test_ul_term_lf_empty : (next? (exec .ulTermLf ing)).map (·.mb.ready) = some false := by decide

/-- D-23: digits are kept at the next index. -/
theorem test_ul_digit_appends :
    (next? (exec (.ulDigit 2#4) (withLine [0x31]))).map (fun t => (t.line.li, t.line.lb[0], t.line.lb[1])) =
      some (2, 0x31#8, 0x32#8) := by decide

/-- R101: a comma is kept. -/
theorem test_ul_comma_appends :
    (next? (exec .ulComma (withLine [0x31]))).map (fun t => (t.line.li, t.line.lb[1])) = some (2, 0x2C#8) := by decide

/-- D-24: a byte of class OTHER is ignored. -/
theorem test_ul_other_ignored : (next? (exec (.ulOther 0xFF#8) (withLine line113))).map (·.line) = some (lineOf line113) := by
  decide

/-! ### The mailbox -/

/-- M-3: a second Publish overwrites the pending sample. -/
theorem test_mb_publish_overwrites :
    (next? (exec (.mbPublish 0 0 false) { pending 100 100 true with actor := .ing })).map (·.mb) =
      some { x := 0, y := 0, valid := false, ready := true } := by decide

/-- M-2: Take answers the sample and keeps the payload. -/
theorem test_mb_take_some :
    (next? (exec .mbTake (pending 113 114 true))).map (fun t => (t.result, t.mb)) =
      some (.sample (some ⟨113, 114, true⟩), { x := 113, y := 114, valid := true, ready := false }) := by decide

/-- M-6: Take performed by ING is refused. -/
theorem test_mb_take_wrong_agent :
    (next? (exec .mbTake { pending 5 5 true with actor := .ing })).map (fun t => (t.result, t.mb.ready, t.refused)) =
      some (.refused .wrongAgent, true, true) := by decide

/-! ### The PID banks -/

/-- A-1: PID_CALC(-7.0) answers -87.5. -/
theorem test_pid_calc_first :
    (next? (exec (.pidCalc .horizontal 0xC0E00000#32) base)).map (fun t => (t.result, t.pidH)) =
      some (.output 0xC2AF0000#32, bank 0xC0E00000 0xC0E00000 0xC0E00000 0xC0E00000) := by decide +kernel

/-- A-6: PID_CALC(-400.0) after saturation answers -1000.0, INTEG -200, DERIV -800. -/
theorem test_pid_calc_saturates :
    (next? (exec (.pidCalc .horizontal 0xC3C80000#32) { base with pidH := bank 0x43C80000 0x43C80000 0x43480000 0 })).map
        (fun t => (t.result, t.pidH)) =
      some (.output 0xC47A0000#32, bank 0xC3C80000 0xC3C80000 0xC3480000 0xC4480000) := by decide +kernel

/-- A-12: PID_RESET clears the transients and keeps the other bank. -/
theorem test_pid_reset :
    (next? (exec (.pidReset .horizontal) { base with pidH := bank 1 2 3 4, pidV := bank 5 6 7 8 })).map (fun t => (t.pidH, t.pidV)) =
      some (bank 0 0 0 0, bank 5 6 7 8) := by decide

/-- A-11: new gains, old transients. -/
theorem test_pid_set_params :
    (next? (exec (.pidSetParams .vertical 0x3F800000 0 0) { base with pidV := bank 1 2 3 4 })).map (·.pidV) =
      some { bank 1 2 3 4 with kp := 0x3F800000, ki := 0, kd := 0 } := by decide

/-- A-13: a NaN gain is refused. -/
theorem test_pid_set_params_refuses :
    (next? (exec (.pidSetParams .horizontal 0x7FC00000 0 0) base)).map (fun t => (t.result, t.pidH)) =
      some (.refused .badGain, bank 0 0 0 0) := by decide

/-- A-10's form: the gains of VCFG. -/
theorem test_pid_get_params :
    (next? (exec (.pidGetParams .vertical) base)).map (·.result) = some (.gains 0x41200000 0x3F000000 0x40000000) := by decide

/-! ### Tracking -/

/-- T-1: (113, 114) outside both deadzones. -/
theorem test_sm_tick_moves :
    (next? (exec .smTick (pending 113 114 true))).map (fun t => (t.out2, t.out1, t.fb.map (·.record), t.sm)) =
      some ([frameT1H], [frameT1V], [⟨113, 114, -7, -6, 0xC2AF0000#32, 0xC2960000#32, .tracking⟩],
        { en := true, mode := .tracking, dwell := 0, loss := 0 }) := by decide +kernel

/-- T-4: the tenth dwell tick locks. -/
theorem test_sm_tick_locks :
    (next? (exec .smTick { pending 121 118 true with sm := { en := true, mode := .tracking, dwell := 9, loss := 0 } })).map
        (fun t => (t.out2, t.out1, t.fb.map (·.record.mode), t.sm)) =
      some ([[0x02, 0xFE, 0x98, 0x00, 0x6B]], [[0x01, 0xFE, 0x98, 0x00, 0x6B]], [.tracking, .locked],
        { en := true, mode := .locked, dwell := 0, loss := 0 }) := by decide +kernel

/-- T-13: SM_ENABLE clears the dwell count and the transients. -/
theorem test_sm_enable :
    (next? (exec .smEnable { base with sm := { base.sm with dwell := 3, loss := 7 }, pidH := bank 1 2 0xC1600000 4 })).map
        (fun t => (t.sm, t.pidH)) =
      some ({ en := true, mode := .idle, dwell := 0, loss := 7 }, bank 0 0 0 0) := by decide

/-- T-12: SM_DISABLE sends both Stops and keeps the counts. -/
theorem test_sm_disable :
    (next? (exec .smDisable { enabled with sm := { en := true, mode := .tracking, dwell := 3, loss := 0 } })).map
        (fun t => (t.out1, t.out2, t.sm)) =
      some ([[0x01, 0xFE, 0x98, 0x00, 0x6B]], [[0x02, 0xFE, 0x98, 0x00, 0x6B]],
        { en := false, mode := .idle, dwell := 3, loss := 0 }) := by decide

/-! ### Frames -/

/-- E-8: 0.28125 degrees is 2.5 pulses, sent as 3. -/
theorem test_enc_move_tie :
    (next? (exec (.encMove .horizontal 0x3E900000 0x04B0 0x05) base)).map (·.result) =
      some (.frame [0x02, 0xFD, 0x01, 0x04, 0xB0, 0x05, 0x00, 0x00, 0x00, 0x03, 0x00, 0x00, 0x6B]) := by decide +kernel

/-- E-7: just below the threshold a Stop is encoded. -/
theorem test_enc_move_below_threshold :
    (next? (exec (.encMove .horizontal 0x3DCCCCCC 0x04B0 0x05) base)).map (·.result) =
      some (.frame [0x02, 0xFE, 0x98, 0x00, 0x6B]) := by decide +kernel

/-- E-18. -/
theorem test_enc_stop : (next? (exec (.encStop .vertical) base)).map (·.result) =
    some (.frame [0x01, 0xFE, 0x98, 0x00, 0x6B]) := by decide

/-- R223: ING may perform only DEC_BYTE, so its ENC_STOP and its telemetry line are refused. -/
theorem test_ing_is_refused :
    (next? (exec (.encStop .vertical) ing)).map (·.result) = some (.refused .wrongAgent) ∧
    (next? (exec (.tlmData ⟨[0x31], [0x31], [0x31], [0x31], [0x31], [0x31]⟩ .idle) ing)).map (·.result) =
      some (.refused .wrongAgent) := by decide

/-- E-19. -/
theorem test_enc_enable : (next? (exec (.encEnable .horizontal true) base)).map (·.result) =
    some (.frame [0x02, 0xF3, 0xAB, 0x01, 0x00, 0x6B]) := by decide

/-- R74: a MOVE frame handed to the vertical motor joins OUT[1] as its bytes. -/
theorem test_frame_move : (next? (exec (.frameMove .vertical .cw 0x04B0 0x05 400) base)).map (fun t => (t.out1, t.out2)) =
    some ([[0x01, 0xFD, 0x01, 0x04, 0xB0, 0x05, 0x00, 0x00, 0x01, 0x90, 0x00, 0x00, 0x6B]], []) := by decide

/-- R75: a STOP frame handed to the horizontal motor joins OUT[2]. -/
theorem test_frame_stop : (next? (exec (.frameStop .horizontal) base)).map (fun t => (t.out1, t.out2)) =
    some ([], [[0x02, 0xFE, 0x98, 0x00, 0x6B]]) := by decide

/-- R76: an EN frame with enable 0. -/
theorem test_frame_enable : (next? (exec (.frameEnable .horizontal false) base)).map (·.out2) =
    some [[0x02, 0xF3, 0xAB, 0x00, 0x00, 0x6B]] := by decide

/-! ### The collaborator surface -/

/-- H-1. -/
theorem test_host_stop_all : (next? (exec .hostStopAll enabled)).map (fun t => (t.out2, t.out1, t.sm)) =
    some ([[0x02, 0xFE, 0x98, 0x00, 0x6B]], [[0x01, 0xFE, 0x98, 0x00, 0x6B]], enabled.sm) := by decide

/-- H-2. -/
theorem test_host_move : (next? (exec (.hostMove .vertical 0x42340000 0x04B0 0x05) base)).map (·.out1) =
    some [[0x01, 0xFD, 0x01, 0x04, 0xB0, 0x05, 0x00, 0x00, 0x01, 0x90, 0x00, 0x00, 0x6B]] := by decide +kernel

/-- H-4. -/
theorem test_host_motor_enable : (next? (exec (.hostMotorEnable .horizontal false) base)).map (·.out2) =
    some [[0x02, 0xF3, 0xAB, 0x00, 0x00, 0x6B]] := by decide

/-- H-5. -/
theorem test_host_set_flag : (next? (exec (.hostSetFlag .feedbackEn true) base)).map (·.host) =
    some { feedbackEn := true, debugEn := false } := by decide

/-- R205: with no record emitted, no line joins the downlink. -/
theorem test_tlm_data_without_record :
    (next? (exec (.tlmData ⟨[0x31], [0x31], [0x31], [0x31], [0x31], [0x31]⟩ .idle) base)).map (·.tlm) = some [] := by decide

/-- R205: a record emitted with FEEDBACK_EN = 1 may follow a line sent 10 ticks before, whatever its text. -/
theorem test_tlm_data_of_record :
    (next? (exec (.tlmData (recordText (entryAt 11 true).record) .tracking)
      { base with fb := [entryAt 11 true], tlm := [entryAt 1 true] })).map (·.tlm) = some [entryAt 1 true, entryAt 11 true] := by
  simp [exec, execTlmData, runAs, show base.actor = .ctl from rfl, sendTelemetry, telemetryEligible, telemetrySpaced, next?, State.done, State.setResult, State.pushTlm, entryAt,
    Config.tlmPeriod, Nat.mod_one]

/-- H-6: the illegal word 0x4302 is refused and changes no flag. -/
theorem test_step_illegal_word :
    (next? (step { base with inbox := [⟨.ctl, .op 0x4302#16 [1#32]⟩] })).map (fun t => (t.result, t.refused, t.host)) =
      some (.refused .illegalOp, true, base.host) := by decide

/-- R79: bytes that are no frame of the block have no behaviour: nothing is issued and nothing refused. -/
theorem test_step_passes_over_bytes :
    (next? (step { base with inbox := [⟨.ctl, .send [0x03, 0xFE, 0x98, 0x00, 0x6B]⟩] })).map (fun t => (t.out1, t.out2, t.refused, t.inbox)) =
      some ([], [], false, []) := by decide

/-- An operation placed by withFetchWord is the one the next step performs. -/
theorem test_step_runs_fetched_word :
    (next? (step (base.withFetchWord 16 0x2100))).map (fun t => (t.sm.en, t.inbox)) = some (true, []) := by decide

/-! ### Witnesses: inputs that meet the hypotheses of each statement -/

/-- The next state, or the state itself where there is none. -/
def ans (i : Instr) (s : State) : State := (next? (exec i s)).getD s

theorem exec_ans {i : Instr} {s : State} (h : (next? (exec i s)).isSome = true) : exec i s = .next (ans i s) := by
  unfold ans
  cases hx : exec i s <;> simp_all [next?]

/-- The state after one step, or the state itself where there is none. -/
def after (s : State) : State := (next? (step s)).getD s

theorem step_after {s : State} (h : (next? (step s)).isSome = true) : step s = .next (after s) := by
  unfold after
  cases hx : step s <;> simp_all [next?]

theorem witness_DecodeOfEncode :
    (Instr.ulDigit 9).wf = true ∧ (Instr.ulOther 0xFF).wf = true ∧ (Instr.pidCalc .horizontal 0xFFFFFFFF).wf = true ∧
    (Instr.tlmData ⟨[0x31], [0x31], [0x31], [0x31], [0x31], [0x31]⟩ .locked).wf = true := by decide

theorem witness_EncodeOfDecode :
    decode (.op 0x4202#16 [1#32]) = .ok (.hostMotorEnable .horizontal true) ∧
    decode (.send [0x02, 0xFE, 0x98, 0x00, 0x6B]) = .ok (.frameStop .horizontal) ∧ decode (.uplink 0x39#8) = .ok (.ulDigit 9) := by
  decide

theorem witness_UplinkBytes :
    (0#4).toNat ≤ 9 ∧ (0x30#8).toNat = 0x30 + (0#4).toNat ∧ (9#4).toNat ≤ 9 ∧ (0x39#8).toNat = 0x30 + (9#4).toNat ∧
    (0x2F#8 ≠ 0x0A#8 ∧ 0x2F#8 ≠ 0x0D#8 ∧ 0x2F#8 ≠ 0x2C#8 ∧ (0x2F#8).toNat < 0x30) ∧
    (0x3A#8 ≠ 0x0A#8 ∧ 0x3A#8 ≠ 0x0D#8 ∧ 0x3A#8 ≠ 0x2C#8 ∧ 0x39 < (0x3A#8).toNat) := by decide

theorem witness_StepPerforms_empty : base.inbox = [] := rfl

theorem witness_StepPerforms_offer :
    (base.withFetchWord 16 0x2000).inbox = ⟨.ctl, .op 0x2000#16 []⟩ :: [] ∧ decode (.op 0x2000#16 []) = .ok .smTick := by decide

theorem witness_IllegalWords :
    ({ base with inbox := [⟨.ctl, .op 0x4302#16 [1#32]⟩] } : State).inbox = ⟨.ctl, .op 0x4302#16 [1#32]⟩ :: [] ∧
    ∀ r ∈ opRows, ¬ SpelledBy 0x4302#16 [1#32] r := by
  refine ⟨rfl, fun r hr h => ?_⟩
  obtain ⟨h1, h2, -⟩ := h
  revert r
  decide

/-- The id 0x03 is no motor's (R188). -/
theorem witness_IllegalWords_send :
    ({ base with inbox := [⟨.ctl, .send [0x03, 0xFE, 0x98, 0x00, 0x6B]⟩] } : State).inbox =
      ⟨.ctl, .send [0x03, 0xFE, 0x98, 0x00, 0x6B]⟩ :: [] ∧ ∀ m, ¬ Emitted m [0x03, 0xFE, 0x98, 0x00, 0x6B] := by
  refine ⟨rfl, fun m h => ?_⟩
  have hid : (if m = Motor.vertical then 0x01#8 else 0x02#8) ≠ 0x03#8 := by cases m <;> decide
  rcases h with ⟨_, _, _, _, _, _, _, _, _, h⟩ | h | ⟨_, h⟩
  · exact absurd (congrArg List.length h) (by simp)
  · exact hid (List.cons.inj h).1.symm
  · exact absurd (congrArg List.length h.2) (by simp)

/-- A line ends in LF (R80). -/
theorem witness_IllegalWords_telemetry :
    ({ base with inbox := [⟨.ctl, .telemetry [0x44]⟩] } : State).inbox = ⟨.ctl, .telemetry [0x44]⟩ :: [] ∧
    ∀ t m, FieldTexts t → [0x44] ≠ lineBytes t m := by
  refine ⟨rfl, fun t m _ h => ?_⟩
  have hl := congrArg List.length h
  simp only [lineBytes, List.length_append, List.length_cons, List.length_nil] at hl
  omega

theorem witness_AcceptedByte_digit :
    ConsumesByte (.ulDigit 1) 0x31 ∧ (withLine (List.replicate 30 0x31)).actor = .ing ∧ DigitOrComma 0x31 = true ∧
    (withLine (List.replicate 30 0x31)).line.li.val < 31 := by
  refine ⟨⟨?_, ?_⟩, ?_, ?_, ?_⟩ <;> decide

theorem witness_AcceptedByte_comma :
    ConsumesByte .ulComma 0x2C ∧ (withLine (List.replicate 31 0x31)).actor = .ing ∧ DigitOrComma 0x2C = true ∧
    (withLine (List.replicate 31 0x31)).line.li.val = 31 := by
  refine ⟨rfl, ?_, ?_, ?_⟩ <;> decide

theorem witness_OtherByte :
    ConsumesByte (.ulOther 0x2D) 0x2D ∧ ConsumesByte (.decByte 0xFF) 0xFF ∧ ing.actor = .ing ∧
    DigitOrComma 0x2D = false ∧ DigitOrComma 0xFF = false ∧ 0x2D#8 ≠ 0x0A#8 ∧ 0xFF#8 ≠ 0x0D#8 := by
  refine ⟨⟨?_, rfl⟩, rfl, ?_, ?_, ?_, ?_, ?_⟩ <;> decide

theorem witness_Terminator :
    ConsumesByte .ulTermLf 0x0A ∧ ConsumesByte .ulTermCr 0x0D ∧ ConsumesByte (.decByte 0x0A) 0x0A ∧
    (withLine [0x31]).actor = .ing ∧ (withLine [0x31]).line.li ≠ 0 ∧ (withLine []).line.li = 0 := by
  refine ⟨rfl, rfl, rfl, ?_, ?_, ?_⟩ <;> decide

theorem witness_Parse : (0x2C#8 ∉ ([0x31, 0x32] : List Byte)) ∧ (0x2C#8 ∉ ([] : List Byte)) := by decide

/-- The offers of some bytes to ING, as operation words. -/
def offersOf (bytes : List Byte) : List Offer := bytes.map fun b => ⟨.ing, .op (0x01#8 ++ b) []⟩

theorem offersOf_spell (bytes : List Byte) :
    List.Forall₂ (fun (o : Offer) b => o.agent = .ing ∧ SpellsByte b o.words) (offersOf bytes) bytes := by
  induction bytes with
  | nil => exact .nil
  | cons b bs ih => exact .cons ⟨rfl, .inl rfl⟩ ih

theorem witness_LineOfBytes :
    ∃ (s : State) (bytes : List Byte) (offers : List Offer), s.line.li = 0 ∧ (∀ b ∈ bytes, b ≠ 0x0A#8 ∧ b ≠ 0x0D#8) ∧
      1 ≤ (bytes.filter DigitOrComma).length ∧ (bytes.filter DigitOrComma).length = 31 ∧
      List.Forall₂ (fun (o : Offer) b => o.agent = .ing ∧ SpellsByte b o.words) offers (bytes ++ [0x0A#8]) ∧
      s.inbox = offers ++ [] :=
  ⟨{ ing with inbox := offersOf (0x20 :: List.replicate 31 0x31 ++ [0x0A]) }, 0x20 :: List.replicate 31 0x31, _,
    rfl, by decide, by decide, by decide, offersOf_spell _, (List.append_nil _).symm⟩

theorem witness_LineOfThirtyTwo :
    ∃ (s : State) (bytes : List Byte) (offers : List Offer), s.line.li = 0 ∧ (∀ b ∈ bytes, b ≠ 0x0A#8 ∧ b ≠ 0x0D#8) ∧
      (bytes.filter DigitOrComma).length = 32 ∧
      List.Forall₂ (fun (o : Offer) b => o.agent = .ing ∧ SpellsByte b o.words) offers (bytes ++ [0x0D#8]) ∧
      s.inbox = offers ++ [] :=
  ⟨{ ing with inbox := offersOf (List.replicate 32 0x31 ++ [0x0D]) }, List.replicate 32 0x31, _,
    rfl, by decide, by decide, offersOf_spell _, (List.append_nil _).symm⟩

theorem witness_Publish : ing.actor = .ing ∧ base.actor = .ctl := by decide

theorem witness_Take :
    (pending 113 114 true).actor = .ctl ∧ (pending 113 114 true).mb.ready = true ∧ base.mb.ready = false ∧ ing.actor = .ing := by decide

theorem witness_TakeOnce :
    (pending 5 5 true).actor = .ctl ∧ exec .mbTake (pending 5 5 true) = .next (ans .mbTake (pending 5 5 true)) ∧
    ing.actor = .ing ∧ exec (.mbPublish 5 5 true) ing = .next (ans (.mbPublish 5 5 true) ing) :=
  ⟨rfl, exec_ans (by decide), rfl, exec_ans (by decide)⟩

theorem witness_MailboxChanges :
    Instr.ulTermLf.wf = true ∧ Instr.smTick.wf = true ∧ exec .ulTermLf (withLine line113) = .next (ans .ulTermLf (withLine line113)) ∧
    (ans .ulTermLf (withLine line113)).mb ≠ (withLine line113).mb ∧
    exec .smTick (pending 121 118 true) = .next (ans .smTick (pending 121 118 true)) ∧
    (ans .smTick (pending 121 118 true)).mb ≠ (pending 121 118 true).mb :=
  ⟨rfl, rfl, exec_ans (by decide), by decide, exec_ans (by decide +kernel), by decide +kernel⟩

/-- A bank whose gains make opposite infinities of the P and the I term. -/
def nanBank : PidBank := { PidBank.powerOn vcfg with kp := 0x7F7FFFFF, ki := 0xFF7FFFFF }

theorem witness_PidCalc :
    base.actor = .ctl ∧ isFinite 0xC0800000 = true ∧ isFinite 0x40A00000 = true ∧
    flt (fabs 0xC0800000) (f32 ((base.pid .horizontal).dz.toNat : Int)) = true ∧
    flt (fabs 0x40A00000) (f32 ((base.pid .horizontal).dz.toNat : Int)) = false ∧
    isNaN (pidSum .standard base.pidH 0x40A00000 (clamped (fadd .standard base.pidH.integ 0x40A00000) base.pidH.imax) 0x40A00000) = false ∧
    isNaN (pidSum .standard nanBank 0x41200000 (clamped (fadd .standard nanBank.integ 0x41200000) nanBank.imax) 0x41200000) = true := by decide +kernel

theorem witness_PidCalcRefuses : base.actor = .ctl ∧ isFinite 0x7F800000 = false ∧ isFinite 0xFFC00000 = false := by decide

theorem witness_PidSetParams : isFinite 0x3F800000 = true ∧ isFinite 0x7F800000 = false ∧ base.actor = .ctl := by decide

theorem bankInv_base : BankInv (base.pid .horizontal) := by
  unfold BankInv
  decide +kernel

theorem witness_PidCalcStays :
    base.actor = .ctl ∧ base.num = .standard ∧ BankInv (base.pid .horizontal) ∧
    exec (.pidCalc .horizontal 0x43C80000) base = .next (ans (.pidCalc .horizontal 0x43C80000) base) ∧
    (ans (.pidCalc .horizontal 0x43C80000) base).result = .output 0x447A0000 :=
  ⟨rfl, rfl, bankInv_base, exec_ans (by decide +kernel), by decide +kernel⟩

/-- e = 400 is twice IMAX = 200, and -400 minus that. -/
theorem witness_IntegralSaturates :
    isFinite 0x43C80000 = true ∧ flt (fabs 0x43C80000) (f32 ((base.pid .horizontal).dz.toNat : Int)) = false ∧
    2 * fvalue (base.pid .horizontal).imax ≤ fvalue 0x43C80000 ∧
    isFinite 0xC3C80000 = true ∧ flt (fabs 0xC3C80000) (f32 ((base.pid .horizontal).dz.toNat : Int)) = false ∧
    fvalue 0xC3C80000 ≤ -(2 * fvalue (base.pid .horizontal).imax) ∧
    exec (.pidCalc .horizontal 0xC3C80000) base = .next (ans (.pidCalc .horizontal 0xC3C80000) base) ∧
    (ans (.pidCalc .horizontal 0xC3C80000) base).result = .output 0xC47A0000 :=
  ⟨by decide +kernel, by decide +kernel, by decide +kernel, by decide +kernel, by decide +kernel, by decide +kernel,
    exec_ans (by decide +kernel), by decide +kernel⟩

theorem witness_IntegralFollows :
    flt (fabs 0xC0E00000) (f32 ((base.pid .horizontal).dz.toNat : Int)) = false ∧ 0 < fvalue 0x43C80000 ∧ fvalue 0xC0E00000 < 0 ∧
    exec (.pidCalc .horizontal 0xC0E00000) base = .next (ans (.pidCalc .horizontal 0xC0E00000) base) ∧
    (ans (.pidCalc .horizontal 0xC0E00000) base).result = .output 0xC2AF0000 :=
  ⟨by decide +kernel, by decide +kernel, by decide +kernel, exec_ans (by decide +kernel), by decide +kernel⟩

/-- 2^24 + 1 lies half way between 2^24 and 2^24 + 2. -/
theorem witness_RoundedOperations :
    isFinite 0x4B800000 = true ∧ isFinite 0x3F800000 = true ∧ isFinite 0x4B800001 = true ∧
    isFinite (fadd .standard 0x4B800000 0x3F800000) = true ∧ isFinite (fsub .standard 0x4B800000 0x3F800000) = true ∧
    isFinite (fmul .standard 0x4B800000 0x3F800000) = true ∧ isFinite (fdiv .standard 0x4B800000 0x3F800000) = true ∧
    fvalue 0x3F800000 ≠ 0 ∧
    |fvalue 0x4B800001 - (fvalue 0x4B800000 + fvalue 0x3F800000)| =
      |fvalue (fadd .standard 0x4B800000 0x3F800000) - (fvalue 0x4B800000 + fvalue 0x3F800000)| ∧
    fvalue 0x4B800001 ≠ fvalue (fadd .standard 0x4B800000 0x3F800000) := by decide +kernel

/-- The largest finite value plus half a unit in its last place overflows, by either sign; plus the next value below half a unit it does
not. A product, a difference and a quotient overflow too. -/
theorem witness_RoundedOperations_overflow :
    |fvalue 0x7F7FFFFF + fvalue 0x73000000| = (2 ^ 25 - 1) * 2 ^ 252 ∧ fadd .standard 0x7F7FFFFF 0x73000000 = 0x7F800000 ∧
    fadd .standard 0xFF7FFFFF 0xF3000000 = 0xFF800000 ∧
    |fvalue 0x7F7FFFFF + fvalue 0x72FFFFFF| < (2 ^ 25 - 1) * 2 ^ 252 ∧ fadd .standard 0x7F7FFFFF 0x72FFFFFF = 0x7F7FFFFF ∧
    fsub .standard 0xFF7FFFFF 0x7F7FFFFF = 0xFF800000 ∧ fmul .standard 0xFF7FFFFF 0x40000000 = 0xFF800000 ∧
    fdiv .standard 0x7F7FFFFF 0x3F000000 = 0x7F800000 := by decide +kernel

theorem witness_IntegersExact : (16777216 : Int).natAbs ≤ 2 ^ 24 ∧ (-16777216 : Int).natAbs ≤ 2 ^ 24 := by decide

/-- The two zeros are equal, an infinity is above every finite value, and a NaN is neither below nor above 1.0. -/
theorem witness_Comparisons :
    (isNaN 0x80000000 = false ∧ isNaN 0x00000000 = false ∧ ¬ fvalue 0x80000000 < fvalue 0x00000000) ∧
    (isNaN 0x7F7FFFFF = false ∧ isNaN 0x7F800000 = false ∧ fvalue 0x7F7FFFFF < fvalue 0x7F800000) ∧
    isNaN 0x7FC00000 = true ∧ isNaN 0xFF800001 = true := by decide +kernel

/-- 2.5 is half way between 2 and 3. -/
theorem witness_RoundHalfAway :
    isFinite 0x40200000 = true ∧ 2 * |fvalue 0x40200000 - roundHalfAway 0x40200000 * 2 ^ 149| = 2 ^ 149 := by decide +kernel

theorem witness_EncMove :
    base.actor = .ctl ∧ isFinite 0x7FC00000 = false ∧ (isFinite 0x3DCCCCCC = true ∧ flt (fabs 0x3DCCCCCC) 0x3DCCCCCD = true) ∧
    (isFinite 0x4E6E6B28 = true ∧ flt (fabs 0x4E6E6B28) 0x3DCCCCCD = false ∧ 2 ^ 31 - 1 < (pulseCount .standard 0x4E6E6B28).natAbs) ∧
    (isFinite 0x3DCCCCCD = true ∧ flt (fabs 0x3DCCCCCD) 0x3DCCCCCD = false ∧ (pulseCount .standard 0x3DCCCCCD).natAbs ≤ 2 ^ 31 - 1) := by
  decide +kernel

theorem witness_HostMove :
    base.actor = .ctl ∧ isFinite 0xFF800000 = false ∧ (isFinite 0x80000000 = true ∧ flt (fabs 0x80000000) 0x3DCCCCCD = true) ∧
    (isFinite 0xCE6E6B28 = true ∧ flt (fabs 0xCE6E6B28) 0x3DCCCCCD = false ∧ 2 ^ 31 - 1 < (pulseCount .standard 0xCE6E6B28).natAbs) ∧
    (isFinite 0xBDCCCCCD = true ∧ flt (fabs 0xBDCCCCCD) 0x3DCCCCCD = false ∧ (pulseCount .standard 0xBDCCCCCD).natAbs ≤ 2 ^ 31 - 1) := by
  decide +kernel

/-- 0.1 itself is not below the threshold. -/
theorem witness_MoveNeverZero : isFinite 0x3DCCCCCD = true ∧ flt (fabs 0x3DCCCCCD) 0x3DCCCCCD = false := by decide +kernel

theorem witness_DisabledTick : base.actor = .ctl ∧ base.sm.en = false := by decide

theorem witness_LossTick :
    enabled.actor = .ctl ∧ enabled.sm.en = true ∧ enabled.mb.ready = false ∧ (pending 0 0 false).mb.valid = false := by decide

/-- Vector T-1. -/
theorem witness_OutsideTick :
    ValidTick (pending 113 114 true) ∧ ¬ Inside (pending 113 114 true) ∧
    pidCalc .standard (pending 113 114 true).pidH (f32 (errorOf 113)) =
      .ok (bank 0xC0E00000 0xC0E00000 0xC0E00000 0xC0E00000, 0xC2AF0000) ∧
    pidCalc .standard (pending 113 114 true).pidV (f32 (errorOf 114)) =
      .ok (bank 0xC0C00000 0xC0C00000 0xC0C00000 0xC0C00000, 0xC2960000) ∧
    encMove .standard (pending 113 114 true).dirPos .horizontal (fmul .standard 0xC2AF0000 0x3C23D70A) 0x04B0 0x05 = .ok frameT1H ∧
    encMove .standard (pending 113 114 true).dirPos .vertical (fmul .standard 0xC2960000 0x3C23D70A) 0x04B0 0x05 = .ok frameT1V := by
  unfold ValidTick Inside
  decide +kernel

/-- dx = 4 and dy = -4 are inside a deadzone of 5; eight dwell ticks counted. -/
theorem witness_InsideTick :
    ValidTick { pending 124 116 true with sm := { en := true, mode := .tracking, dwell := 8, loss := 0 } } ∧
    Inside { pending 124 116 true with sm := { en := true, mode := .tracking, dwell := 8, loss := 0 } } ∧ (8#8).toNat + 1 < 10 := by
  unfold ValidTick Inside
  decide

theorem witness_TenthTick :
    ValidTick { pending 124 116 true with sm := { en := true, mode := .tracking, dwell := 9, loss := 0 } } ∧
    Inside { pending 124 116 true with sm := { en := true, mode := .tracking, dwell := 9, loss := 0 } } ∧ 9 ≤ (9#8).toNat ∧ (9#8).toNat < 255 := by
  unfold ValidTick Inside
  decide

/-- A bank whose output 10^12 is more pulses than a frame can carry. -/
def hugeBank : PidBank := { PidBank.powerOn vcfg with kp := 0x501502F9, ki := 0, kd := 0, omax := 0x5368D4A5 }

/-- A tick at (220, 220) with these banks. -/
def tick220 (bH bV : PidBank) : State := { pending 220 220 true with pidH := bH, pidV := bV }

theorem witness_RefusedTick_pidH :
    ValidTick (tick220 nanBank base.pidV) ∧ pidCalc .standard (tick220 nanBank base.pidV).pidH (f32 (errorOf 220)) = .error .pidNan := by
  unfold ValidTick
  decide +kernel

theorem witness_RefusedTick_pidV :
    ValidTick (tick220 base.pidH nanBank) ∧ pidCalc .standard (tick220 base.pidH nanBank).pidV (f32 (errorOf 220)) = .error .pidNan ∧
    ∃ h, pidCalc .standard (tick220 base.pidH nanBank).pidH (f32 (errorOf 220)) = .ok h := by
  unfold ValidTick
  exact ⟨by decide, by decide +kernel, (bank 0x42C80000 0x42C80000 0x42C80000 0x42C80000, 0x447A0000), by decide +kernel⟩

/-- hugeBank after its output for an error of 100. -/
def hugeAfter : PidBank := { hugeBank with err := 0x42C80000, last := 0x42C80000, integ := 0x42C80000, deriv := 0x42C80000 }

theorem witness_RefusedTick_encH :
    ValidTick (tick220 hugeBank hugeBank) ∧ ¬ Inside (tick220 hugeBank hugeBank) ∧
    pidCalc .standard (tick220 hugeBank hugeBank).pidH (f32 (errorOf 220)) = .ok (hugeAfter, 0x5368D4A5) ∧
    pidCalc .standard (tick220 hugeBank hugeBank).pidV (f32 (errorOf 220)) = .ok (hugeAfter, 0x5368D4A5) ∧
    encMove .standard (tick220 hugeBank hugeBank).dirPos .horizontal (fmul .standard 0x5368D4A5 0x3C23D70A) 0x04B0 0x05 = .error .pulseRange := by
  unfold ValidTick Inside
  decide +kernel

theorem witness_RefusedTick_encV :
    ValidTick (tick220 base.pidH hugeBank) ∧ ¬ Inside (tick220 base.pidH hugeBank) ∧
    pidCalc .standard (tick220 base.pidH hugeBank).pidH (f32 (errorOf 220)) =
      .ok (bank 0x42C80000 0x42C80000 0x42C80000 0x42C80000, 0x447A0000) ∧
    pidCalc .standard (tick220 base.pidH hugeBank).pidV (f32 (errorOf 220)) = .ok (hugeAfter, 0x5368D4A5) ∧
    encMove .standard (tick220 base.pidH hugeBank).dirPos .horizontal (fmul .standard 0x447A0000 0x3C23D70A) 0x04B0 0x05 =
      .ok [0x02, 0xFD, 0x01, 0x04, 0xB0, 0x05, 0x00, 0x00, 0x00, 0x59, 0x00, 0x00, 0x6B] ∧
    encMove .standard (tick220 base.pidH hugeBank).dirPos .vertical (fmul .standard 0x5368D4A5 0x3C23D70A) 0x04B0 0x05 = .error .pulseRange := by
  unfold ValidTick Inside
  decide +kernel

/-- n copies of (121, 118) are published, each before its tick. -/
def insideRun (n : Nat) : State := { enabled with inbox := (List.replicate n ⟨121, 118, true⟩).flatMap publishThenTick }

theorem insideRun_meets (n : Nat) :
    (insideRun n).sm.en = true ∧ (insideRun n).sm.dwell = 0 ∧
    (∀ smp ∈ List.replicate n (⟨121, 118, true⟩ : Sample), InsideSample (insideRun n) smp) ∧
    (insideRun n).inbox = (List.replicate n ⟨121, 118, true⟩).flatMap publishThenTick ++ [] := by
  refine ⟨rfl, rfl, fun smp h => ?_, (List.append_nil _).symm⟩
  obtain rfl := (List.mem_replicate.1 h).2
  exact ⟨rfl, (by decide : (errorOf 121).natAbs < (5#8).toNat), (by decide : (errorOf 118).natAbs < (5#8).toNat)⟩

/-- n = 1, the least of the clause 0 < n < 10. -/
theorem witness_TenInside_one :
    (insideRun 1).sm.en = true ∧ (insideRun 1).sm.dwell = 0 ∧
    (∀ smp ∈ List.replicate 1 (⟨121, 118, true⟩ : Sample), InsideSample (insideRun 1) smp) ∧
    (insideRun 1).inbox = (List.replicate 1 ⟨121, 118, true⟩).flatMap publishThenTick ++ [] ∧
    0 < (List.replicate 1 (⟨121, 118, true⟩ : Sample)).length ∧ (List.replicate 1 (⟨121, 118, true⟩ : Sample)).length < 10 :=
  have h := insideRun_meets 1
  ⟨h.1, h.2.1, h.2.2.1, h.2.2.2, by decide, by decide⟩

/-- n = 9, the greatest of the clause 0 < n < 10. -/
theorem witness_TenInside_nine :
    (insideRun 9).sm.en = true ∧ (insideRun 9).sm.dwell = 0 ∧
    (∀ smp ∈ List.replicate 9 (⟨121, 118, true⟩ : Sample), InsideSample (insideRun 9) smp) ∧
    (insideRun 9).inbox = (List.replicate 9 ⟨121, 118, true⟩).flatMap publishThenTick ++ [] ∧
    0 < (List.replicate 9 (⟨121, 118, true⟩ : Sample)).length ∧ (List.replicate 9 (⟨121, 118, true⟩ : Sample)).length < 10 :=
  have h := insideRun_meets 9
  ⟨h.1, h.2.1, h.2.2.1, h.2.2.2, by decide, by decide⟩

/-- n = 10, the clause that locks. -/
theorem witness_TenInside_ten :
    (insideRun 10).sm.en = true ∧ (insideRun 10).sm.dwell = 0 ∧
    (∀ smp ∈ List.replicate 10 (⟨121, 118, true⟩ : Sample), InsideSample (insideRun 10) smp) ∧
    (insideRun 10).inbox = (List.replicate 10 ⟨121, 118, true⟩).flatMap publishThenTick ++ [] ∧
    (List.replicate 10 (⟨121, 118, true⟩ : Sample)).length = 10 :=
  have h := insideRun_meets 10
  ⟨h.1, h.2.1, h.2.2.1, h.2.2.2, by decide⟩

/-- The one hypothesis of the PidReset, PidGetParams, EncStop, EncEnable, Enable, Disable, StopAll, MotorEnable, SetFlag and frame statements. -/
theorem witness_ControlDomain : base.actor = .ctl ∧ enabled.actor = .ctl := by decide

/-- A record 10 ticks after the latest line may follow it. -/
theorem witness_Telemetry_sent :
    ∃ s : State, s.actor = .ctl ∧ entryAt 11 true ∈ s.fb ∧ (entryAt 11 true).feedbackEn = true ∧ (entryAt 11 true).record.mode = .tracking ∧
      ∀ l, s.tlm.getLast? = some l → l.tick + 10 ≤ (entryAt 11 true).tick :=
  ⟨{ base with fb := [entryAt 1 true, entryAt 11 true], tlm := [entryAt 1 true] }, rfl, by decide, rfl, rfl, by
    intro l hl
    obtain rfl : entryAt 1 true = l := by simpa using hl
    decide⟩

/-- A record 9 ticks after the latest line may not, and one emitted with the flag clear never may. -/
theorem witness_Telemetry_held :
    ∃ s : State, s.actor = .ctl ∧ s.fb ≠ [] ∧ ∀ e ∈ s.fb, e.feedbackEn = true → ∃ l, s.tlm.getLast? = some l ∧ e.tick < l.tick + 10 :=
  ⟨{ base with fb := [entryAt 1 true, entryAt 10 true, entryAt 30 false], tlm := [entryAt 1 true] }, rfl, by decide, by
    intro e he hf
    have h3 : e = entryAt 1 true ∨ e = entryAt 10 true ∨ e = entryAt 30 false := by simpa using he
    obtain rfl | rfl | rfl := h3
    · exact ⟨entryAt 1 true, rfl, by decide⟩
    · exact ⟨entryAt 1 true, rfl, by decide⟩
    · exact absurd hf (by decide)⟩

theorem witness_WrongAgent : ing.actor ≠ performer .smTick ∧ ing.actor ≠ performer (.encStop .vertical) ∧
    base.actor ≠ performer .ulTermLf ∧ base.actor ≠ performer (.mbPublish 0 0 false) ∧ (Instr.ulDigit 9).wf = true := by decide

theorem witness_Domains :
    exec .ulTermLf (withLine line113) = .next (ans .ulTermLf (withLine line113)) ∧ (withLine line113).actor = .ing ∧
    exec .smTick (pending 121 118 true) = .next (ans .smTick (pending 121 118 true)) ∧ (pending 121 118 true).actor = .ctl :=
  ⟨exec_ans (by decide), rfl, exec_ans (by decide +kernel), rfl⟩

/-- ING is about to terminate the line "113,114". -/
def lineNext : State := { withLine line113 with inbox := [⟨.ing, .uplink 0x0A⟩] }

/-- CTL is about to perform the tick of vector T-1. -/
def tickNext : State := { pending 113 114 true with inbox := [⟨.ctl, .op 0x2000#16 []⟩], refused := true }

theorem witness_StepsKeep : step tickNext = .next (after tickNext) ∧ tickNext.refused = true :=
  ⟨step_after (by decide +kernel), rfl⟩

theorem witness_StepKeepsLine : LineInv lineNext ∧ step lineNext = .next (after lineNext) :=
  ⟨by unfold LineInv; decide, step_after (by decide)⟩

theorem witness_StepKeepsSample :
    SampleInv lineNext ∧ PublishesInFrame lineNext ∧ step lineNext = .next (after lineNext) := by
  refine ⟨by unfold SampleInv InFrame; decide, ?_, step_after (by decide)⟩
  intro o rest x y v ho hi
  obtain ⟨rfl, rfl⟩ : (⟨.ing, .uplink 0x0A⟩ : Offer) = o ∧ ([] : List Offer) = rest := by simpa [lineNext] using ho
  have h2 : decode (.uplink 0x0A) = .ok .ulTermLf := by decide
  cases h2.symm.trans hi

/-- ING is about to publish (240, 0), the bounds of the frame. -/
def publishNext : State := { base with inbox := [⟨.ing, .op 0x0200#16 [240#32, 0#32, 1#32]⟩] }

theorem witness_StepKeepsSample_published :
    SampleInv publishNext ∧ PublishesInFrame publishNext ∧ step publishNext = .next (after publishNext) := by
  refine ⟨by unfold SampleInv InFrame; decide, ?_, step_after (by decide)⟩
  intro o rest x y v ho hi
  obtain ⟨rfl, rfl⟩ : (⟨.ing, .op 0x0200#16 [240#32, 0#32, 1#32]⟩ : Offer) = o ∧ ([] : List Offer) = rest := by
    simpa [publishNext] using ho
  have h2 : decode (.op 0x0200#16 [240#32, 0#32, 1#32]) = .ok (.mbPublish 240 0 true) := by decide
  cases h2.symm.trans hi
  exact ⟨by unfold InFrame; decide, by unfold InFrame; decide, by decide⟩

theorem witness_StepKeepsPid : PidInv tickNext ∧ tickNext.num = .standard ∧ step tickNext = .next (after tickNext) :=
  ⟨⟨bankInv_base, bankInv_base⟩, rfl, step_after (by decide +kernel)⟩

theorem witness_StepKeepsTracking : TrackInv tickNext ∧ step tickNext = .next (after tickNext) :=
  ⟨by unfold TrackInv; decide, step_after (by decide +kernel)⟩

theorem witness_StepKeepsTelemetry : TelemetryInv tickNext ∧ step tickNext = .next (after tickNext) :=
  ⟨by unfold TelemetryInv; decide, step_after (by decide +kernel)⟩

theorem witness_StepKeepsSend :
    SendInv tickNext ∧ step tickNext = .next (after tickNext) ∧ Integrated tickNext ∧ frameT1V ∈ ((after tickNext).out .vertical).drop
      (tickNext.out .vertical).length := by
  refine ⟨?_, step_after (by decide +kernel), ?_, by decide +kernel⟩
  · intro m
    refine ⟨by cases m <;> rfl, fun f hf => ?_⟩
    cases m <;> cases hf
  · intro o rest i ho hi
    obtain ⟨rfl, rfl⟩ : (⟨.ctl, .op 0x2000#16 []⟩ : Offer) = o ∧ ([] : List Offer) = rest := by simpa [tickNext] using ho
    have h2 : decode (.op 0x2000#16 []) = .ok .smTick := by decide
    cases h2.symm.trans hi
    rfl

/-- Limits of zero are admitted; a NaN gain and a negative limit are not. -/
theorem witness_Construction :
    (isFinite 0x41200000 = true ∧ (0 : Int) ≤ fvalue 0x00000000) ∧ isFinite 0x7FC00000 = false ∧ fvalue 0x80000001 < 0 := by
  decide +kernel

end Sys2Proof.Tests
end

section
/-! The step on an offer: an equation per case of `step`, and that every operation answers a next state (00_scope.md R15, R22). -/

namespace Sys2Proof.Machine

theorem step_of_empty {s : State} (h : s.inbox = []) : step s = .next s := by
  simp [step, nextOffer, h]

theorem step_of_decoded {s : State} {o : Offer} {rest : List Offer} {i : Instr} (h : s.inbox = o :: rest)
    (hd : decode o.words = .ok i) : step s = exec i (s.takeOffer o rest) := by
  simp [step, nextOffer, h, hd]

theorem step_of_undecoded {s : State} {o : Offer} {rest : List Offer} {e : DecodeError} (h : s.inbox = o :: rest)
    (hd : decode o.words = .error e) : step s = .next (unspelled o.words (s.takeOffer o rest)) := by
  simp [step, nextOffer, h, hd]

/-- Every operation is one transition under the access rule of its agent (R82, R223). -/
theorem exec_eq_runAs (i : Instr) (s : State) : ∃ t, exec i s = runAs (performer i) s t := by
  cases i <;> exact ⟨_, rfl⟩

theorem exec_answers_next (i : Instr) (s : State) : ∃ t, exec i s = .next t := by
  obtain ⟨t, h⟩ := exec_eq_runAs i s
  exact ⟨_, h⟩

/-- Settles O6: both clauses are equations of the step. -/
theorem stepPerformsTheOfferedOperation : Obligations.StepPerformsTheOfferedOperation :=
  fun _ => ⟨step_of_empty, fun _ _ _ => step_of_decoded⟩

/-- Settles O8, by the cases of the step: nothing offered, words that spell an operation, words that spell none. -/
theorem everyStepAnswersANextState : Obligations.EveryStepAnswersANextState := by
  intro s
  cases hi : s.inbox with
  | nil => exact ⟨s, step_of_empty hi⟩
  | cons o rest =>
    cases hd : decode o.words with
    | ok i => rw [step_of_decoded hi hd]; exact exec_answers_next i _
    | error e => exact ⟨_, step_of_undecoded hi hd⟩

end Sys2Proof.Machine
end

section
/-! The power-on state and the block's own parameters (70_reset_and_hazards.md R240, R241). -/

namespace Sys2Proof.Machine

/-- R130 admits the configuration that stands in for one it does not admit (log entry 13). -/
theorem zeroConfig_admitted : PidConfig.admitted ⟨0, 0, 0, 0, 0, 0⟩ = true := by decide

/-- What the block's own parameters are (R241; log entry 13). -/
theorem params_cases :
    (Config.anyParams.admitted = true ∧ Config.params = Config.anyParams) ∨
    (Config.anyParams.admitted = false ∧
      Config.params = { Config.anyParams with pidH := ⟨0, 0, 0, 0, 0, 0⟩, pidV := ⟨0, 0, 0, 0, 0, 0⟩ }) := by
  unfold Config.params
  cases h : Config.anyParams.admitted
  · exact .inr ⟨rfl, if_neg Bool.false_ne_true⟩
  · exact .inl ⟨rfl, if_pos rfl⟩

theorem params_admitted : Config.params.admitted = true := by
  obtain ⟨ha, hp⟩ | ⟨-, hp⟩ := params_cases <;> rw [hp]
  · exact ha
  · exact Bool.and_eq_true_iff.mpr ⟨zeroConfig_admitted, zeroConfig_admitted⟩

/-- Settles O59: the fields of the power-on state are R240's, and the block's own parameters are admitted. -/
theorem powerOnStateIsAsSpecified : Obligations.PowerOnStateIsAsSpecified :=
  ⟨fun _ => ⟨rfl, rfl, rfl, rfl, rfl, rfl, rfl, rfl, rfl, rfl, rfl, rfl, rfl, rfl⟩, rfl, params_admitted, params_cases⟩

end Sys2Proof.Machine
end

section
/-! What no effect of an operation changes or takes back: the limits of a bank, DIR_POS, the mark REFUSED, the outputs
(10_state.md R32, R33; 60_exceptions.md R217). -/

namespace Sys2Proof.Machine

/-- The limits of a bank that no operation writes (R32). -/
def SameLimits (p q : PidBank) : Prop := q.imax = p.imax ∧ q.omax = p.omax ∧ q.dz = p.dz

theorem SameLimits.refl (p : PidBank) : SameLimits p p := ⟨rfl, rfl, rfl⟩

theorem SameLimits.of_clear (p : PidBank) : SameLimits p p.clear := ⟨rfl, rfl, rfl⟩

theorem SameLimits.of_pidCalc {n : NumConfig} {p q : PidBank} {e u : F32} (h : pidCalc n p e = .ok (q, u)) :
    SameLimits p q := by
  obtain ⟨-, -, -, hlim⟩ := pidCalc_keeps h
  exact hlim

variable {i : Instr} {s t : State}

/-- Writing a bank with the limits of the old one keeps the limits of both banks. -/
theorem SameLimits.of_setPid {a : Axis} {p : PidBank} (h : SameLimits (s.pid a) p) (b : Axis) :
    SameLimits (s.pid b) ((s.setPid a p).pid b) := by
  rw [State.setPid_pid]
  split
  · subst b; exact h
  · exact .refl _

theorem SameLimits.of_tick (h : tick s = .ok t) (b : Axis) : SameLimits (s.pid b) (t.pid b) := by
  rcases tick_pid h b with hb | ⟨e, u, hb⟩
  · rw [hb]; exact .refl _
  · exact .of_pidCalc hb

theorem Effect.sameLimits (h : Effect i s t) (b : Axis) : SameLimits (s.pid b) (t.pid b) := by
  cases h with
  | byte c _ =>
    obtain ⟨hH, hV, -⟩ := consumeByte_frame c s
    have hpid : (consumeByte c s).done.pid b = s.pid b := by
      cases b
      · exact hH
      · exact hV
    rw [hpid]; exact .refl _
  | calculated a e u p _ hp => exact .of_setPid (.of_pidCalc hp) b
  | pidReset a _ => exact .of_setPid (.of_clear _) b
  | gains a kp ki kd _ _ =>
    have hlim : SameLimits (s.pid a) { s.pid a with kp := kp, ki := ki, kd := kd } := ⟨rfl, rfl, rfl⟩
    exact hlim.of_setPid b
  | ticked u _ hu => exact .of_tick hu b
  | enabled _ => cases b <;> exact .of_clear _
  | sent m f _ _ => cases m <;> cases b <;> exact .refl _
  | _ => cases b <;> exact .refl _

/-- No operation writes DIR_POS (R7). -/
theorem Effect.dirPos_eq (h : Effect i s t) : t.dirPos = s.dirPos := by
  cases h with
  | byte b _ =>
    obtain ⟨-, -, -, -, -, -, -, -, -, -, -, hd, -⟩ := consumeByte_frame b s
    exact hd
  | ticked u _ hu =>
    obtain ⟨-, -, -, -, hd, -⟩ := tick_frame hu
    exact hd
  | calculated a => cases a <;> rfl
  | pidReset a => cases a <;> rfl
  | gains a => cases a <;> rfl
  | sent m => cases m <;> rfl
  | _ => rfl

/-- Nothing clears the mark REFUSED (R217). -/
theorem Effect.refused_sticky (h : Effect i s t) (hs : s.refused = true) : t.refused = true := by
  cases h with
  | refused r => rfl
  | tickRefused r _ _ => rfl
  | byte b _ =>
    obtain ⟨-, -, -, -, -, -, -, -, -, -, -, -, -, hr⟩ := consumeByte_frame b s
    exact hr.trans hs
  | ticked u _ hu =>
    obtain ⟨-, -, -, -, -, -, -, -, hr, -⟩ := tick_frame hu
    exact hr.trans hs
  | calculated a => cases a <;> exact hs
  | pidReset a => cases a <;> exact hs
  | gains a => cases a <;> exact hs
  | sent m => cases m <;> exact hs
  | _ => exact hs

/-- The frames issued to a motor are only appended to (R33). -/
theorem Effect.out_appended (h : Effect i s t) : s.out1 <+: t.out1 ∧ s.out2 <+: t.out2 := by
  rcases h.issues with ⟨h1, h2, -⟩ | ⟨f, -, h1, h2, -⟩ | ⟨f, -, h1, h2, -⟩ | ⟨fH, fV, -, -, h1, h2, -⟩ <;> rw [h1, h2] <;> simp

/-- FB, LOST and the telemetry lines are only appended to (R33). -/
theorem Effect.streams_appended (h : Effect i s t) : s.fb <+: t.fb ∧ s.lost <+: t.lost ∧ s.tlm <+: t.tlm := by
  cases h with
  | byte b _ =>
    obtain ⟨-, -, -, -, -, -, -, hfb, hlost, htlm, -⟩ := consumeByte_frame b s
    simp [hfb, hlost, htlm]
  | ticked u _ hu =>
    obtain ⟨l, e, hlost, hfb, -⟩ := tick_outputs i hu
    obtain ⟨-, -, htlm, -⟩ := tick_frame hu
    simp [hfb, hlost, htlm]
  | line e _ _ _ => simp
  | disabled _ => simp [stopBoth]
  | stopped _ => simp [stopBoth]
  | _ => simp

/-- Settles O51: a step passes over its offer, refuses it, or has an effect, and no effect changes these. -/
theorem stepsKeepLimitsMarkAndOutputs : Obligations.StepsKeepLimitsMarkAndOutputs := by
  intro s t h
  rcases step_effect h with ⟨-, rfl⟩ | ⟨o, rest, -, ⟨e, -, rfl | rfl⟩ | ⟨i, -, he⟩⟩
  · simp
  · exact ⟨fun _ => ⟨rfl, rfl, rfl⟩, by simp⟩
  · exact ⟨fun _ => ⟨rfl, rfl, rfl⟩, by simp⟩
  · obtain ⟨hout1, hout2⟩ := he.out_appended
    exact ⟨he.sameLimits, he.dirPos_eq, he.num_eq, he.refused_sticky, hout1, hout2, he.streams_appended⟩

end Sys2Proof.Machine
end

section
/-! Rounding to nearest even (00_scope.md R8, R12): `RoundsTo` of a packed sign and rounded magnitude, from which the four
rounded operations follow. -/

namespace Sys2Proof.Machine

open Sys2Proof.Statements

/-- An integer of this sign and magnitude. -/
def signed (neg : Bool) (n : Nat) : Int := if neg then -(n : Int) else n

theorem fvalue_eq_signed (x : F32) : fvalue x = signed (fsign x) (funits x) := rfl

theorem fvalue_fpack_eq_signed {neg : Bool} {m : Nat} (h : m < 2 ^ 31) : fvalue (fpack neg m) = signed neg (unitsOf m) :=
  fvalue_fpack h

theorem signed_zero (neg : Bool) : signed neg 0 = 0 := by cases neg <;> rfl

theorem abs_signed (neg : Bool) (n : Nat) : |signed neg n| = n := by cases neg <;> simp [signed]

theorem signed_decide_natAbs (z : Int) : signed (decide (z < 0)) z.natAbs = z := by
  rcases lt_or_ge z 0 with h | h
  · simp [signed, h, abs_of_neg h]
  · simp [signed, not_lt.mpr h, abs_of_nonneg h]

theorem signed_mul_signed (p q : Bool) (m n : Nat) : signed p m * signed q n = signed (p != q) (m * n) := by
  cases p <;> cases q <;> simp [signed]

theorem signed_mul_natCast (p : Bool) (m n : Nat) : signed p m * (n : Int) = signed p (m * n) := by
  cases p <;> simp [signed]

theorem neg_signed (p : Bool) (n : Nat) : -signed p n = signed (!p) n := by cases p <;> simp [signed]

theorem signed_ne_zero_iff {p : Bool} {n : Nat} : signed p n ≠ 0 ↔ n ≠ 0 := by cases p <;> simp [signed]

theorem signed_mul_neg_iff {neg : Bool} {n d : Nat} (hd : 0 < d) : signed neg n * d < 0 ↔ neg = true ∧ n ≠ 0 := by
  rw [signed_mul_natCast]
  have hnd : n * d = 0 ↔ n = 0 := by simp [hd.ne']
  cases neg <;> simp [signed] <;> omega

/-! ### Distances: how far a multiple of d lies from an exact result -/

/-- Values of one sign are as far apart as their magnitudes. -/
theorem dist_same_sign (neg : Bool) (u n d : Nat) :
    |signed neg u * d - signed neg n| = (((u * d : Nat) - n : Int).natAbs : Int) := by
  rw [signed_mul_natCast, Int.natCast_natAbs]
  cases neg
  · rfl
  · rw [← abs_neg]
    simp only [signed, if_true]
    congr 1
    ring

/-- Values of opposite signs are the sum of their magnitudes apart. -/
theorem dist_opposite_sign {p neg : Bool} (h : p ≠ neg) (u n d : Nat) :
    |signed p u * d - signed neg n| = ((u * d + n : Nat) : Int) := by
  rw [signed_mul_natCast, Int.abs_eq_natAbs]
  obtain rfl : p = !neg := Bool.eq_not.mpr h
  cases neg <;> simp only [signed, Bool.not_true, Bool.not_false, Bool.false_eq_true, if_true, if_false] <;> omega

/-- Values are at least as far apart as their magnitudes. -/
theorem le_dist (p neg : Bool) (u n d : Nat) :
    (((u * d : Nat) - n : Int).natAbs : Int) ≤ |signed p u * d - signed neg n| := by
  by_cases h : p = neg
  · subst h; rw [dist_same_sign]
  · rw [dist_opposite_sign h]; omega

/-! ### Packed patterns -/

theorem isFinite_fpack {neg : Bool} {m : Nat} (h : m < 2 ^ 31) : isFinite (fpack neg m) = true ↔ m < infMag := by
  rw [isFinite_iff, fmag_fpack h]

theorem fpack_infMag (neg : Bool) : fpack neg infMag = if neg = true then 0xFF800000#32 else 0x7F800000#32 := by
  cases neg <;> rfl

theorem fpack_toNat_even {neg : Bool} {m : Nat} (h : m < 2 ^ 31) (he : m % 2 = 0) : (fpack neg m).toNat % 2 = 0 := by
  rw [fpack_toNat h]
  split <;> omega

theorem roundMag_zero {d : Nat} (hd : 0 < d) : roundMag 0 d = 0 := by
  simpa [unitsOf_zero] using roundMag_exact hd (Nat.zero_le infMag)

variable {neg : Bool} {n d : Nat}

theorem isFinite_rounded_iff (hd : 0 < d) :
    isFinite (fpack neg (roundMag n d)) = true ↔ |signed neg n| < (2 ^ 25 - 1) * 2 ^ 252 * |(d : Int)| := by
  have hcast : (((2 ^ 25 - 1) * 2 ^ 252 * d : Nat) : Int) = (2 ^ 25 - 1) * 2 ^ 252 * |(d : Int)| := by
    rw [Nat.abs_cast]; push_cast; rfl
  rw [isFinite_fpack (roundMag_lt _ _), roundMag_lt_infMag_iff hd, abs_signed, ← hcast, Nat.cast_lt]

/-- What overflows is the infinity of the exact result's sign. -/
theorem rounded_overflow (hd : 0 < d) (h : isFinite (fpack neg (roundMag n d)) = false) :
    fpack neg (roundMag n d) = if signed neg n * d < 0 then 0xFF800000#32 else 0x7F800000#32 := by
  have hinf : roundMag n d = infMag := by
    refine le_antisymm (roundMag_le_infMag n d) (not_lt.mp fun hlt => ?_)
    rw [(isFinite_fpack (roundMag_lt n d)).mpr hlt] at h
    cases h
  have hn : n ≠ 0 := by
    rintro rfl
    rw [roundMag_zero hd] at hinf
    cases hinf
  rw [hinf, fpack_infMag]
  simp only [signed_mul_neg_iff hd, hn, ne_eq, not_false_eq_true, and_true]

/-- No value is nearer to the exact result than the rounded one. -/
theorem rounded_nearest (hd : 0 < d) (h : roundMag n d < infMag) (c : F32) :
    |fvalue (fpack neg (roundMag n d)) * d - signed neg n| ≤ |fvalue c * d - signed neg n| := by
  rw [fvalue_fpack_eq_signed (roundMag_lt n d), dist_same_sign, fvalue_eq_signed]
  calc (((unitsOf (roundMag n d) * d : Nat) - n : Int).natAbs : Int)
      ≤ ((funits c * d : Nat) - n : Int).natAbs := Int.ofNat_le.mpr (roundMag_nearest hd h (fmag c))
    _ ≤ |signed (fsign c) (funits c) * d - signed neg n| := le_dist _ _ _ _ _

/-- Where another value is as near, the rounded one's magnitude pattern is even. A value of the opposite sign and the same magnitude
is as near only where both are zero, so the other value's magnitude is another one. -/
theorem rounded_tie_even (hd : 0 < d) (h : roundMag n d < infMag) {c : F32}
    (heq : |fvalue c * d - signed neg n| = |fvalue (fpack neg (roundMag n d)) * d - signed neg n|)
    (hne : fvalue c ≠ fvalue (fpack neg (roundMag n d))) : roundMag n d % 2 = 0 := by
  rw [fvalue_fpack_eq_signed (roundMag_lt n d), fvalue_eq_signed] at heq hne
  rw [dist_same_sign] at heq
  by_cases hm : fmag c = roundMag n d
  · rw [funits_eq, hm] at heq hne
    have hs : fsign c ≠ neg := fun hs => hne (by rw [hs])
    have hu : unitsOf (roundMag n d) ≠ 0 := fun h0 => hne (by rw [h0, signed_zero, signed_zero])
    have hn : n ≠ 0 := by
      rintro rfl
      exact hu (by rw [roundMag_zero hd, unitsOf_zero])
    rw [dist_opposite_sign hs] at heq
    have := Nat.mul_pos (Nat.pos_of_ne_zero hu) hd
    omega
  · refine roundMag_tie_even hd h hm (le_antisymm ?_ (roundMag_nearest hd h _))
    have hle := le_dist (fsign c) neg (funits c) n d
    rw [heq] at hle
    exact Int.ofNat_le.mp hle

/-- A packed sign and rounded magnitude is the exact result rounded to nearest even. -/
theorem roundsTo_fpack (neg : Bool) (n : Nat) {d : Nat} (hd : 0 < d) :
    RoundsTo (fpack neg (roundMag n d)) (signed neg n) d := by
  refine ⟨isFinite_rounded_iff hd, rounded_overflow hd, fun hn => ?_, fun hfin c _ => ?_⟩
  · rw [fsign_fpack (roundMag_lt n d)]
    simp only [signed_mul_neg_iff hd, signed_ne_zero_iff.mp hn, ne_eq, not_false_eq_true, and_true, Bool.decide_eq_true]
  · have hlt := (isFinite_fpack (roundMag_lt n d)).mp hfin
    exact ⟨rounded_nearest hd hlt c, fun heq hne =>
      fpack_toNat_even (roundMag_lt n d) (rounded_tie_even hd hlt heq hne)⟩

/-- Numerator and denominator may change sign together. -/
theorem roundsTo_of_neg_neg {r : F32} {x d : Int} (h : RoundsTo r (-x) (-d)) : RoundsTo r x d := by
  have hdist : ∀ v : Int, |v * -d - -x| = |v * d - x| := fun v => by rw [← abs_neg]; congr 1; ring
  simpa only [RoundsTo, abs_neg, neg_mul_neg, neg_ne_zero, hdist] using h

/-! ### The four operations -/

variable {a b : F32}

theorem ieeeAdd_roundsTo (ha : isFinite a = true) (hb : isFinite b = true) : RoundsTo (ieeeAdd a b) (fvalue a + fvalue b) 1 := by
  rw [ieeeAdd_finite ha hb]
  split
  · rename_i hz
    have := roundsTo_fpack (fsign a && fsign b) 0 Nat.one_pos
    rwa [roundMag_zero Nat.one_pos, signed_zero, ← hz] at this
  · have := roundsTo_fpack (decide (fvalue a + fvalue b < 0)) (fvalue a + fvalue b).natAbs Nat.one_pos
    rwa [signed_decide_natAbs] at this

theorem ieeeSub_roundsTo (ha : isFinite a = true) (hb : isFinite b = true) : RoundsTo (ieeeSub a b) (fvalue a - fvalue b) 1 := by
  rw [sub_eq_add_neg, ← fvalue_fneg]
  exact ieeeAdd_roundsTo ha ((isFinite_fneg b).trans hb)

theorem ieeeMul_roundsTo (ha : isFinite a = true) (hb : isFinite b = true) :
    RoundsTo (ieeeMul a b) (fvalue a * fvalue b) (2 ^ 149) := by
  rw [ieeeMul_finite ha hb, fvalue_eq_signed a, fvalue_eq_signed b, signed_mul_signed]
  exact_mod_cast roundsTo_fpack (fsign a != fsign b) (funits a * funits b) (d := 2 ^ 149) (by positivity)

theorem ieeeDiv_roundsTo (ha : isFinite a = true) (hb : isFinite b = true) (h0 : fvalue b ≠ 0) :
    RoundsTo (ieeeDiv a b) (fvalue a * 2 ^ 149) (fvalue b) := by
  have hu : funits b ≠ 0 := signed_ne_zero_iff.mp h0
  have hx : fvalue a * 2 ^ 149 = signed (fsign a) (funits a * 2 ^ 149) := by
    rw [fvalue_eq_signed, ← signed_mul_natCast]; norm_cast
  have h := roundsTo_fpack (fsign a != fsign b) (funits a * 2 ^ 149) (Nat.pos_of_ne_zero hu)
  rw [ieeeDiv_finite ha hb (mt (fmag_eq_zero_iff b).mp hu), hx, fvalue_eq_signed b]
  cases hs : fsign b
  · simpa [hs, signed] using h
  · refine roundsTo_of_neg_neg ?_
    rw [neg_signed, neg_signed]
    simpa [hs, signed] using h

/-- Settles O27: each operation packs a sign and a rounded magnitude of its exact result. -/
theorem roundedOperationsAreNearestEven : Obligations.RoundedOperationsAreNearestEven :=
  fun _ _ ha hb => ⟨ieeeAdd_roundsTo ha hb, ieeeSub_roundsTo ha hb, ieeeMul_roundsTo ha hb, ieeeDiv_roundsTo ha hb⟩

end Sys2Proof.Machine
end

section
/-! Integers as binary32 and the ordered comparisons (00_scope.md R12, 44_tracking.md R155). -/

namespace Sys2Proof.Machine

/-- An integer up to 2^24 is the value of a finite magnitude pattern. -/
theorem exists_pattern_of_le {n : Nat} (h : n ≤ 2 ^ 24) : ∃ m < infMag, unitsOf m = n * 2 ^ 149 := by
  rcases Nat.eq_zero_or_pos n with rfl | hn
  · exact ⟨0, by decide, by decide⟩
  let j := 23 - Nat.log2 n
  have hj : j ≤ 23 := Nat.sub_le _ _
  have hlow : 2 ^ 23 ≤ n * 2 ^ j :=
    calc 2 ^ 23 ≤ 2 ^ (Nat.log2 n + j) := Nat.pow_le_pow_right (by decide) (by omega)
      _ = 2 ^ Nat.log2 n * 2 ^ j := Nat.pow_add _ _ _
      _ ≤ n * 2 ^ j := Nat.mul_le_mul_right _ (Nat.log2_self_le hn.ne')
  have hhigh : n * 2 ^ j ≤ 2 ^ 24 := by
    rcases Nat.lt_or_ge 23 (Nat.log2 n) with hl | hl
    · rw [show j = 0 by omega]; omega
    · calc n * 2 ^ j ≤ 2 ^ (Nat.log2 n + 1) * 2 ^ j := Nat.mul_le_mul_right _ Nat.lt_log2_self.le
        _ = 2 ^ 24 := by rw [← Nat.pow_add]; congr 1; omega
  refine ⟨(149 - j) * 2 ^ 23 + n * 2 ^ j, ?_, ?_⟩
  · have hinf : infMag = 255 * 2 ^ 23 := by decide
    omega
  · rw [unitsOf_shift (.inr hlow) hhigh, Nat.mul_assoc, ← Nat.pow_add]
    congr 2
    omega

/-- f32 packs the sign and the pattern of a small integer (R12). -/
theorem f32_eq_fpack {n : Int} (h : n.natAbs ≤ 2 ^ 24) :
    ∃ m < infMag, unitsOf m = n.natAbs * 2 ^ 149 ∧ f32 n = fpack (decide (n < 0)) m := by
  obtain ⟨m, hm, hu⟩ := exists_pattern_of_le h
  refine ⟨m, hm, hu, ?_⟩
  rw [f32, ← hu, ← Nat.mul_one (unitsOf m), roundMag_exact Nat.one_pos hm.le]

theorem isFinite_f32 {n : Int} (h : n.natAbs ≤ 2 ^ 24) : isFinite (f32 n) = true := by
  obtain ⟨m, hm, -, hf⟩ := f32_eq_fpack h
  rw [hf]
  exact (isFinite_fpack (hm.trans (by decide))).mpr hm

theorem fvalue_f32 {n : Int} (h : n.natAbs ≤ 2 ^ 24) : fvalue (f32 n) = n * 2 ^ 149 := by
  obtain ⟨m, hm, hu, hf⟩ := f32_eq_fpack h
  rw [hf, fvalue_fpack_eq_signed (hm.trans (by decide)), hu, ← signed_mul_natCast, signed_decide_natAbs]
  norm_cast

theorem fvalue_fabs (x : F32) : fvalue (fabs x) = |fvalue x| := by
  rw [fvalue_eq_signed x, abs_signed, fvalue_eq_signed, fsign_fabs, funits_eq, fmag_fabs]
  rfl

/-- The deadzone test on binary32 is the one on integers (R155). -/
theorem flt_fabs_f32 {n : Int} (h : n.natAbs ≤ 2 ^ 24) (dz : Byte) :
    flt (fabs (f32 n)) (f32 (dz.toNat : Int)) = decide (n.natAbs < dz.toNat) := by
  have hdz : ((dz.toNat : Int)).natAbs ≤ 2 ^ 24 := by have := dz.isLt; omega
  have hn : isNaN (fabs (f32 n)) = false := (isNaN_fabs _).trans (isNaN_of_isFinite (isFinite_f32 h))
  have hiff : flt (fabs (f32 n)) (f32 (dz.toNat : Int)) = true ↔ n.natAbs < dz.toNat := by
    rw [flt_iff_fvalue hn (isNaN_of_isFinite (isFinite_f32 hdz)), fvalue_fabs, fvalue_f32 h, fvalue_f32 hdz, abs_mul,
      abs_of_pos (show (0 : Int) < 2 ^ 149 by positivity), mul_lt_mul_iff_left₀ (by positivity), Int.abs_eq_natAbs,
      Nat.cast_lt]
  rw [Bool.eq_iff_iff, hiff, decide_eq_true_iff]

theorem flt_of_isNaN {a b : F32} (h : isNaN a = true ∨ isNaN b = true) : flt a b = false := by
  rcases h with h | h <;> simp [flt, h]

theorem fgt_of_isNaN {a b : F32} (h : isNaN a = true ∨ isNaN b = true) : fgt a b = false := by
  rcases h with h | h <;> simp [fgt, h]

/-- Settles O28: a small integer is a pattern's value, so f32 keeps it and the comparisons, which compare values, agree. -/
theorem integersAreExactAndDeadzoneTestsAgree : Obligations.IntegersAreExactAndDeadzoneTestsAgree :=
  ⟨fun _ h => ⟨isFinite_f32 h, fvalue_f32 h, flt_fabs_f32 h⟩, fun _ _ ha hb => ⟨flt_iff_fvalue ha hb, fgt_iff_fvalue ha hb⟩,
    fun _ _ h => ⟨flt_of_isNaN h, fgt_of_isNaN h⟩⟩

end Sys2Proof.Machine
end

section
/-! What an effect does to the decoder's registers, the mailbox and the feedback stream, and who performs it: each domain writes its
own components and they share only the mailbox (10_state.md R20; 20_memory.md R60). -/

namespace Sys2Proof.Machine

variable {i : Instr} {s t : State}

/-- Only a byte that ING consumes changes the decoder's registers: it is appended, or the line is dropped (R101 to R105). -/
theorem Effect.line_cases (h : Effect i s t) :
    t.line = s.line ∨
    (s.actor = .ing ∧ (t.line = { s.line with li := 0 } ∨ ∃ b, isAccepted b = true ∧ t.line = accept b s.line)) := by
  cases h with
  | byte b ha =>
    rcases consumeByte_cases b s with ⟨-, -, hc⟩ | ⟨-, -, hc⟩ | ⟨-, hb, hc⟩ | ⟨-, -, hc⟩ <;> rw [hc]
    · exact .inl rfl
    · exact .inr ⟨ha, .inl rfl⟩
    · exact .inr ⟨ha, .inr ⟨b, hb, rfl⟩⟩
    · exact .inl rfl
  | ticked u _ hu =>
    obtain ⟨hline, -⟩ := tick_frame hu
    exact .inl hline
  | disabled _ => exact .inl rfl
  | stopped _ => exact .inl rfl
  | _ => exact .inl (by simp)

/-- The mailbox changes by ING's Publish, of a parsed line or of the sample an MB_PUBLISH carries, and by CTL's Take (R120, R121). -/
theorem Effect.mb_cases (h : Effect i s t) :
    t.mb = s.mb ∨
    (s.actor = .ctl ∧ t.mb = { s.mb with ready := false }) ∨
    (s.actor = .ing ∧ ∃ p : Sample, t.mb = { x := p.x, y := p.y, valid := p.valid, ready := true } ∧
      ((∃ text, p = parse text) ∨ i = .mbPublish p.x p.y p.valid)) := by
  cases h with
  | byte b ha =>
    rcases consumeByte_cases b s with ⟨-, -, hc⟩ | ⟨-, -, hc⟩ | ⟨-, -, hc⟩ | ⟨-, -, hc⟩ <;> rw [hc]
    · exact .inl rfl
    · exact .inr (.inr ⟨ha, _, rfl, .inl ⟨_, rfl⟩⟩)
    · exact .inl rfl
    · exact .inl rfl
  | published x y v hi ha => exact .inr (.inr ⟨ha, ⟨x, y, v⟩, rfl, .inr hi⟩)
  | took ha => exact .inr (.inl ⟨ha, rfl⟩)
  | ticked u ha hu =>
    obtain ⟨-, -, -, -, -, -, -, -, -, hmb | ⟨-, hmb⟩⟩ := tick_frame hu
    · exact .inl hmb
    · exact .inr (.inl ⟨ha, hmb⟩)
  | disabled _ => exact .inl rfl
  | stopped _ => exact .inl rfl
  | _ => exact .inl (by simp)

/-- Only a tick that CTL performs on a valid sample emits feedback (R154, R204). -/
theorem Effect.fb_cases (h : Effect i s t) :
    ∃ new, t.fb = s.fb ++ new ∧ ∀ e ∈ new, s.actor = .ctl ∧ s.mb.valid = true ∧ EntryOfTick s.countTick e := by
  cases h with
  | byte b _ =>
    obtain ⟨-, -, -, -, -, -, -, hfb, -⟩ := consumeByte_frame b s
    exact ⟨[], by simp [hfb], by simp⟩
  | ticked u ha hu =>
    obtain ⟨-, new, -, hfb, hnew, -⟩ := tick_outputs i hu
    exact ⟨new, hfb, fun e he => ⟨ha, hnew e he⟩⟩
  | disabled _ => exact ⟨[], by simp [stopBoth], by simp⟩
  | stopped _ => exact ⟨[], by simp [stopBoth], by simp⟩
  | _ => exact ⟨[], by simp, by simp⟩

/-- What ING performs touches no component of the control domain and none of its outputs (R20). -/
theorem Effect.frame_of_ing (h : Effect i s t) (hs : s.actor = .ing) :
    t.pidH = s.pidH ∧ t.pidV = s.pidV ∧ t.sm = s.sm ∧ t.host = s.host ∧ t.out1 = s.out1 ∧ t.out2 = s.out2 ∧
      t.fb = s.fb ∧ t.lost = s.lost := by
  cases h with
  | byte b _ =>
    obtain ⟨hH, hV, hsm, hhost, hout1, hout2, -, hfb, hlost, -⟩ := consumeByte_frame b s
    exact ⟨hH, hV, hsm, hhost, hout1, hout2, hfb, hlost⟩
  | refused | published | answered | line => exact ⟨rfl, rfl, rfl, rfl, rfl, rfl, rfl, rfl⟩
  | _ => exact nomatch hs.symm.trans ‹s.actor = .ctl›

/-- What CTL performs touches no decoder register, and of the mailbox READY at most (R20, R60). -/
theorem Effect.frame_of_ctl (h : Effect i s t) (hs : s.actor = .ctl) :
    t.line = s.line ∧ (t.mb = s.mb ∨ t.mb = { s.mb with ready := false }) := by
  have hing : s.actor ≠ .ing := fun ha => nomatch hs.symm.trans ha
  constructor
  · rcases h.line_cases with hline | ⟨ha, -⟩
    · exact hline
    · exact absurd ha hing
  · rcases h.mb_cases with hmb | ⟨-, hmb⟩ | ⟨ha, -⟩
    · exact .inl hmb
    · exact .inr hmb
    · exact absurd ha hing

/-- Settles O50: the effects of each agent leave the other's components alone. -/
theorem domainsShareOnlyTheMailbox : Obligations.DomainsShareOnlyTheMailbox :=
  fun _ _ _ h => ⟨(exec_effect h).frame_of_ing, (exec_effect h).frame_of_ctl⟩

end Sys2Proof.Machine
end

section
/-! Invariants of every step (10_state.md R24, R25, R27, R30), each from what an effect does to the component it speaks of. -/

namespace Sys2Proof.Machine

variable {i : Instr} {s t : State}

/-- A step keeps what taking an offer does not disturb and every effect keeps; a refusal is an effect of any operation. -/
theorem step_keeps {P : State → Prop} (htake : ∀ (s : State) o rest, P s → P (s.takeOffer o rest))
    (heffect : ∀ {i : Instr} {s t : State}, Effect i s t → P s → P t) (hs : P s) (h : step s = .next t) : P t := by
  rcases step_effect h with ⟨-, rfl⟩ | ⟨o, rest, -, ⟨e, -, rfl | rfl⟩ | ⟨i, -, he⟩⟩
  · exact hs
  · exact htake _ _ _ hs
  · exact heffect (i := .smTick) (.refused _) (htake _ _ _ hs)
  · exact heffect he (htake _ _ _ hs)

/-! ### The line (R24) -/

theorem text_of_li_zero {l : LineRegs} (h : l.li = 0) : l.text = [] := by
  simp [LineRegs.text, h]

/-- Below 31 bytes ACCEPT appends its byte to the text (R101). -/
theorem text_accept_of_lt {b : Byte} {l : LineRegs} (h : l.li.val < 31) : (accept b l).text = l.text ++ [b] := by
  have hlen : l.li.val < l.lb.toList.length := by simp
  rw [LineRegs.text, accept_li h, accept_of_lt h, LineRegs.text, Vector.toList_set, List.take_add_one,
    List.take_set_of_le (le_refl _), List.getElem?_set_self hlen]
  rfl

/-- At 31 bytes ACCEPT drops the line (R102). -/
theorem text_accept_of_full {b : Byte} {l : LineRegs} (h : l.li.val = 31) : (accept b l).text = [] := by
  rw [accept_of_full h]; exact text_of_li_zero rfl

theorem isAccepted_of_mem_text_accept {b : Byte} {l : LineRegs} (hb : isAccepted b = true)
    (hl : ∀ c ∈ l.text, isAccepted c = true) : ∀ c ∈ (accept b l).text, isAccepted c = true := by
  rcases Nat.lt_or_eq_of_le (Nat.le_of_lt_succ l.li.isLt) with hlt | hfull
  · rw [text_accept_of_lt hlt]
    simpa [or_imp, forall_and] using ⟨hl, hb⟩
  · simp [text_accept_of_full hfull]

theorem Effect.lineInv (h : Effect i s t) (hs : LineInv s) : LineInv t := by
  unfold LineInv
  rcases h.line_cases with hline | ⟨-, hline | ⟨b, hb, hline⟩⟩ <;> rw [hline]
  · exact hs
  · simp [text_of_li_zero]
  · exact isAccepted_of_mem_text_accept hb hs

/-- Settles O52: the line is kept, dropped, or extended by an accepted byte. -/
theorem stepKeepsLineInvariant : Obligations.StepKeepsLineInvariant :=
  fun _ _ => step_keeps (fun _ _ _ => id) Effect.lineInv

/-! ### The tracking registers (R30) -/

theorem TrackInv.of_sm_eq (hs : TrackInv s) (h : t.sm = s.sm) : TrackInv t := by
  rwa [TrackInv, h]

theorem TrackInv.of_tick (hs : TrackInv s) (h : tick s = .ok t) : TrackInv t := by
  rcases tick_sm h with ⟨-, hsm⟩ | ⟨-, hsm⟩ | ⟨-, hsm⟩ | ⟨-, hlt, hsm⟩ | ⟨-, -, hsm⟩
  · exact hs.of_sm_eq hsm
  · simp [TrackInv, hsm]
  · simp [TrackInv, hsm]
  · simpa [TrackInv, hsm] using Nat.le_of_lt_succ hlt
  · simp [TrackInv, hsm]

theorem Effect.trackInv (h : Effect i s t) (hs : TrackInv s) : TrackInv t := by
  cases h with
  | byte b _ =>
    obtain ⟨-, -, hsm, -⟩ := consumeByte_frame b s
    exact hs.of_sm_eq hsm
  | ticked u _ hu =>
    have hu' : TrackInv u := (hs.of_sm_eq s.countTick_sm).of_tick hu
    exact hu'.of_sm_eq u.done_sm
  | enabled _ => simp [TrackInv]
  | disabled _ =>
    obtain ⟨hdwell, -⟩ := hs
    simpa [TrackInv, stopBoth] using hdwell
  | stopped _ => exact hs.of_sm_eq rfl
  | _ => exact hs.of_sm_eq (by simp)

/-- Settles O55: every tick but a counting one leaves DWELL at 0, and that one counts below 10. -/
theorem stepKeepsTrackingInvariant : Obligations.StepKeepsTrackingInvariant :=
  fun _ _ => step_keeps (fun _ _ _ => id) Effect.trackInv

/-! ### The mailbox and the feedback records (R25, R81) -/

/-- R25 for one sample. -/
def SampleInFrame (p : Sample) : Prop := InFrame p.x ∧ InFrame p.y ∧ (p.valid = false → p.x = 0 ∧ p.y = 0)

/-- R81 for one feedback record. -/
def RecordInFrame (r : FeedbackRecord) : Prop :=
  0 ≤ r.x ∧ r.x ≤ 240 ∧ 0 ≤ r.y ∧ r.y ≤ 240 ∧ r.dx = r.x - 120 ∧ r.dy = r.y - 120

theorem sampleInv_iff : SampleInv s ↔ SampleInFrame ⟨s.mb.x, s.mb.y, s.mb.valid⟩ ∧ ∀ e ∈ s.fb, RecordInFrame e.record := by
  simp only [SampleInv, SampleInFrame, RecordInFrame, and_assoc]

/-- MKSAMPLE clamps, and its invalid sample is (0, 0) (R107). -/
theorem mkSample_inFrame (x y : Nat) : SampleInFrame (mkSample x y) := by
  have hmin : ∀ n, InFrame (BitVec.ofNat 16 (min n Config.frameSize)) := fun n =>
    (Nat.mod_le _ _).trans (Nat.min_le_right n 240)
  unfold mkSample
  split
  · exact ⟨Nat.zero_le _, Nat.zero_le _, fun _ => ⟨rfl, rfl⟩⟩
  · exact ⟨hmin x, hmin y, nofun⟩

/-- The bounds of a coordinate in the frame, which a feedback record reads as signed (R81). -/
theorem InFrame.toInt_bounds {c : Word16} (h : InFrame c) : 0 ≤ c.toInt ∧ c.toInt ≤ 240 := by
  unfold InFrame at h
  rw [BitVec.toInt_eq_toNat_of_lt (by omega)]
  omega

theorem EntryOfTick.inFrame {e : FeedbackEntry} (h : EntryOfTick s e) (hs : SampleInFrame ⟨s.mb.x, s.mb.y, s.mb.valid⟩) :
    RecordInFrame e.record := by
  obtain ⟨-, -, hx, hy, hdx, hdy⟩ := h
  obtain ⟨hxin, hyin, -⟩ := hs
  obtain ⟨hx0, hx240⟩ := hxin.toInt_bounds
  obtain ⟨hy0, hy240⟩ := hyin.toInt_bounds
  rw [RecordInFrame, hx, hy, hdx, hdy]
  exact ⟨hx0, hx240, hy0, hy240, rfl, rfl⟩

theorem Effect.sampleInv (h : Effect i s t) (hs : SampleInv s)
    (hpub : ∀ x y v, i = .mbPublish x y v → SampleInFrame ⟨x, y, v⟩) : SampleInv t := by
  rw [sampleInv_iff] at hs ⊢
  obtain ⟨hcell, hrecords⟩ := hs
  constructor
  · rcases h.mb_cases with hmb | ⟨-, hmb⟩ | ⟨-, p, hmb, ⟨text, rfl⟩ | hi⟩ <;> rw [hmb]
    · exact hcell
    · exact hcell
    · exact mkSample_inFrame _ _
    · exact hpub _ _ _ hi
  · obtain ⟨new, hfb, hnew⟩ := h.fb_cases
    rw [hfb]
    intro e he
    rcases List.mem_append.mp he with hold | hmem
    · exact hrecords e hold
    · obtain ⟨-, -, hentry⟩ := hnew e hmem
      exact hentry.inFrame hcell

/-- Settles O53: what is published is clamped or carried by the offer, and a tick's records are taken from the mailbox. -/
theorem stepKeepsSampleInvariant : Obligations.StepKeepsSampleInvariant := by
  intro s t hs hpub h
  rcases step_effect h with ⟨-, rfl⟩ | ⟨o, rest, hinbox, ⟨e, -, rfl | rfl⟩ | ⟨i, hd, he⟩⟩
  · exact hs
  · exact hs
  · exact hs
  · exact he.sampleInv hs fun x y v hi => hpub o rest x y v hinbox (hi ▸ hd)

/-! ### The PID banks (R27) -/

theorem abs_fvalue (x : F32) : |fvalue x| = funits x := by rw [fvalue_eq_signed, abs_signed]

/-- A value no larger than a finite one is finite. -/
theorem isFinite_of_abs_fvalue_le {x y : F32} (hy : isFinite y = true) (h : |fvalue x| ≤ |fvalue y|) : isFinite x = true := by
  rw [abs_fvalue, abs_fvalue, Nat.cast_le, funits_eq, funits_eq, unitsOf_strictMono.le_iff_le] at h
  rw [isFinite_iff] at hy ⊢
  exact h.trans_lt hy

/-- The clamp of anything but NaN lies within its limits (R131). -/
theorem abs_fvalue_clampSym_le {v lim : F32} (hv : isNaN v = false) (hfin : isFinite lim = true) (h0 : 0 ≤ fvalue lim) :
    |fvalue (clampSym v lim)| ≤ fvalue lim := by
  have hlim : isNaN lim = false := isNaN_of_isFinite hfin
  have hneg : isNaN (fneg lim) = false := (isNaN_fneg lim).trans hlim
  unfold clampSym
  split
  · exact (abs_of_nonneg h0).le
  · rename_i hgt
    rw [fgt_iff_fvalue hv hlim, not_lt] at hgt
    split
    · rw [fvalue_fneg, abs_neg]; exact (abs_of_nonneg h0).le
    · rename_i hlt
      rw [flt_iff_fvalue hv hneg, not_lt, fvalue_fneg] at hlt
      exact abs_le.mpr ⟨hlt, hgt⟩

theorem isFinite_clampSym {v lim : F32} (hv : isNaN v = false) (hfin : isFinite lim = true) (h0 : 0 ≤ fvalue lim) :
    isFinite (clampSym v lim) = true :=
  isFinite_of_abs_fvalue_le hfin ((abs_fvalue_clampSym_le hv hfin h0).trans (le_abs_self _))

theorem isFinite_fzero : isFinite fzero = true := by decide

theorem fvalue_fzero : fvalue fzero = 0 := by decide

theorem BankInv.clear {p : PidBank} (h : BankInv p) : BankInv p.clear := by
  obtain ⟨hkp, hki, hkd, himax, homax, himax0, homax0, -, -, -⟩ := h
  refine ⟨hkp, hki, hkd, himax, homax, himax0, homax0, isFinite_fzero, isFinite_fzero, ?_⟩
  rw [PidBank.clear_integ, fvalue_fzero, abs_zero]
  exact himax0

theorem BankInv.withGains {p : PidBank} {kp ki kd : F32} (h : BankInv p)
    (hgains : isFinite kp = true ∧ isFinite ki = true ∧ isFinite kd = true) :
    BankInv { p with kp := kp, ki := ki, kd := kd } := by
  obtain ⟨-, -, -, hrest⟩ := h
  obtain ⟨hkp, hki, hkd⟩ := hgains
  exact ⟨hkp, hki, hkd, hrest⟩

/-- PID_CALC keeps the domain: the new integral is a clamped sum, the new last error the finite operand (R131, R132). -/
theorem BankInv.of_pidCalc {p b : PidBank} {e u : F32} (h : BankInv p) (hc : pidCalc .standard p e = .ok (b, u)) : BankInv b := by
  obtain ⟨he, ⟨-, rfl, -⟩ | ⟨-, -, rfl, -⟩⟩ := pidCalc_ok_cases hc
  · exact h.clear
  · obtain ⟨hkp, hki, hkd, himax, homax, himax0, homax0, -, hinteg, -⟩ := h
    have hsum : isNaN (ieeeAdd p.integ e) = false := isNaN_ieeeAdd hinteg he
    exact ⟨hkp, hki, hkd, himax, homax, himax0, homax0, he, isFinite_clampSym hsum himax himax0,
      abs_fvalue_clampSym_le hsum himax himax0⟩

theorem pidInv_iff : PidInv s ↔ ∀ a, BankInv (s.pid a) :=
  ⟨fun ⟨hH, hV⟩ a => by cases a <;> assumption, fun h => ⟨h .horizontal, h .vertical⟩⟩

theorem PidInv.setPid {a : Axis} {p : PidBank} (hs : PidInv s) (hp : BankInv p) : PidInv (s.setPid a p) := by
  rw [pidInv_iff] at hs ⊢
  intro b
  rw [State.setPid_pid]
  split
  · exact hp
  · exact hs b

theorem PidInv.of_tick (hs : PidInv s) (hn : s.num = .standard) (h : tick s = .ok t) : PidInv t := by
  rw [pidInv_iff] at hs ⊢
  intro a
  rcases tick_pid h a with ha | ⟨e, u, ha⟩
  · rw [ha]; exact hs a
  · rw [hn] at ha
    exact (hs a).of_pidCalc ha

theorem Effect.pidInv (h : Effect i s t) (hn : s.num = .standard) (hs : PidInv s) : PidInv t := by
  have hbank := pidInv_iff.mp hs
  cases h with
  | byte b _ =>
    obtain ⟨hH, hV, -⟩ := consumeByte_frame b s
    simpa [PidInv, hH, hV] using hs
  | calculated a e u b _ hb => exact hs.setPid (a := a) ((hbank a).of_pidCalc (hn ▸ hb))
  | pidReset a _ => exact hs.setPid (a := a) (hbank a).clear
  | gains a kp ki kd _ hgains => exact hs.setPid (a := a) ((hbank a).withGains hgains)
  | ticked u _ hu =>
    have hu' : PidInv u := PidInv.of_tick (s := s.countTick) hs hn hu
    exact hu'
  | enabled _ => exact ⟨(hbank .horizontal).clear, (hbank .vertical).clear⟩
  | sent m _ _ _ => simpa [PidInv] using hs
  | _ => exact hs

/-- Settles O54: a bank is written by PID_CALC, cleared, or given finite gains. -/
theorem stepKeepsPidInvariant : Obligations.StepKeepsPidInvariant :=
  fun _ _ hs hn => step_keeps (P := fun s => PidInv s ∧ s.num = .standard) (fun _ _ _ => id)
    (fun h ⟨hs, hn⟩ => ⟨h.pidInv hn hs, h.num_eq.trans hn⟩) ⟨hs, hn⟩

/-! ### Reset (R240) -/

/-- What R130 admits, by value. -/
theorem pidConfig_admitted_iff (c : PidConfig) :
    c.admitted = true ↔ isFinite c.kp = true ∧ isFinite c.ki = true ∧ isFinite c.kd = true ∧ isFinite c.imax = true ∧
      isFinite c.omax = true ∧ 0 ≤ fvalue c.imax ∧ 0 ≤ fvalue c.omax := by
  have hflt : ∀ x : F32, isFinite x = true → ((!flt x fzero) = true ↔ 0 ≤ fvalue x) := fun x hx => by
    rw [Bool.not_eq_true', ← Bool.not_eq_true, flt_iff_fvalue (isNaN_of_isFinite hx) (isNaN_of_isFinite isFinite_fzero),
      fvalue_fzero, not_lt]
  simp only [PidConfig.admitted, Bool.and_eq_true, and_assoc]
  exact and_congr_right fun _ => and_congr_right fun _ => and_congr_right fun _ => and_congr_right fun himax =>
    and_congr_right fun homax => and_congr (hflt _ himax) (hflt _ homax)

theorem BankInv.powerOn {c : PidConfig} (h : c.admitted = true) : BankInv (PidBank.powerOn c) := by
  obtain ⟨hkp, hki, hkd, himax, homax, himax0, homax0⟩ := (pidConfig_admitted_iff c).mp h
  refine ⟨hkp, hki, hkd, himax, homax, himax0, homax0, isFinite_fzero, isFinite_fzero, ?_⟩
  show |fvalue fzero| ≤ fvalue c.imax
  rw [fvalue_fzero, abs_zero]
  exact himax0

theorem lineInv_powerOn (p : BootParams) : LineInv (State.powerOn p) := by
  rw [LineInv, text_of_li_zero rfl]
  exact nofun

theorem sampleInv_powerOn (p : BootParams) : SampleInv (State.powerOn p) :=
  ⟨Nat.zero_le _, Nat.zero_le _, fun _ => ⟨rfl, rfl⟩, nofun⟩

theorem pidInv_powerOn {p : BootParams} (h : p.admitted = true) : PidInv (State.powerOn p) := by
  obtain ⟨hH, hV⟩ := Bool.and_eq_true_iff.mp h
  exact ⟨.powerOn hH, .powerOn hV⟩

theorem trackInv_powerOn (p : BootParams) : TrackInv (State.powerOn p) :=
  ⟨Nat.zero_le _, fun _ => rfl, fun _ => rfl, fun _ => rfl⟩

theorem telemetryInv_powerOn (p : BootParams) : TelemetryInv (State.powerOn p) :=
  ⟨.nil, nofun, .slnil, .nil⟩

theorem sendInv_powerOn (p : BootParams) : SendInv (State.powerOn p) := by
  intro m
  cases m <;> exact ⟨rfl, nofun⟩

/-- Settles O58: power-on meets each invariant; the banks' domain is the one R130 admits. -/
theorem resetMeetsTheInvariants : Obligations.ResetMeetsTheInvariants :=
  ⟨lineInv_powerOn _, sampleInv_powerOn _, pidInv_powerOn params_admitted, trackInv_powerOn _, telemetryInv_powerOn _,
    sendInv_powerOn _⟩

end Sys2Proof.Machine
end

section
/-! The access rule of exec, and the operations that hand the decoder a byte (20_memory.md R60; 60_exceptions.md R217, R223). -/

namespace Sys2Proof.Machine

open Sys2Proof.Statements

variable {i : Instr} {s t : State} {b : Byte}

theorem exec_of_wrong_agent (h : s.actor ≠ performer i) : exec i s = .next (s.refuse .wrongAgent) := by
  obtain ⟨u, hu⟩ := exec_eq_runAs i s
  rw [hu, runAs_refused h]

/-- The byte of a digit (R71). -/
theorem toNat_digitByte (d : BitVec 4) : (0x3#4 ++ d : Byte).toNat = 0x30 + d.toNat := by
  revert d; decide

/-- Every operation that consumes a byte is DEC_BYTE of that byte under another name (R71, R100). -/
theorem exec_of_consumesByte (h : ConsumesByte i b) : exec i s = exec (.decByte b) s := by
  cases i with
  | decByte c => rw [show b = c from h]
  | ulTermLf => rw [show b = Config.chLf from h]; rfl
  | ulTermCr => rw [show b = Config.chCr from h]; rfl
  | ulComma => rw [show b = Config.chComma from h]; rfl
  | ulDigit d =>
    obtain ⟨-, hd⟩ := h
    rw [show b = 0x3#4 ++ d from BitVec.eq_of_toNat_eq (hd.trans (toNat_digitByte d).symm)]; rfl
  | ulOther c =>
    obtain ⟨-, rfl⟩ := h
    rfl
  | _ => exact h.elim

/-- ING performs what hands the decoder a byte, and MB_PUBLISH (R60, R223). -/
theorem performer_eq_ing_iff (hwf : i.wf = true) :
    performer i = .ing ↔ (∃ b, ConsumesByte i b) ∨ ∃ x y v, i = .mbPublish x y v := by
  cases i with
  | decByte b => exact iff_of_true rfl (.inl ⟨b, rfl⟩)
  | ulTermLf | ulTermCr | ulComma => exact iff_of_true rfl (.inl ⟨_, rfl⟩)
  | ulDigit d => exact iff_of_true rfl (.inl ⟨0x3#4 ++ d, of_decide_eq_true hwf, toNat_digitByte d⟩)
  | ulOther b => exact iff_of_true rfl (.inl ⟨b, hwf, rfl⟩)
  | mbPublish x y v => exact iff_of_true rfl (.inr ⟨x, y, v, rfl⟩)
  | _ => exact iff_of_false nofun (by rintro (⟨_, ⟨⟩⟩ | ⟨_, _, _, ⟨⟩⟩))

/-- Settles O49: exec is one transition under the access rule, and the performers are read off the constructors. -/
theorem wrongAgentIsRefused : Obligations.WrongAgentIsRefused :=
  fun _ _ => ⟨exec_of_wrong_agent, performer_eq_ing_iff⟩

end Sys2Proof.Machine
end

section
/-! The mailbox: Take once, Publish again, and the operations that can change the cell (20_memory.md R57, R60; 10_state.md R31;
42_mailbox.md R122). -/

namespace Sys2Proof.Machine

open Sys2Proof.Statements

variable {i : Instr} {s t u : State} {b : Byte}

/-! ### Take and Publish (R57) -/

theorem exec_mbTake (h : s.actor = .ctl) : exec .mbTake s = .next ((afterTake s).setResult (.sample (taken s))) :=
  runAs_performed h

theorem exec_mbTake_of_not_ready (h : s.actor = .ctl) (hr : s.mb.ready = false) :
    exec .mbTake s = .next (s.setResult (.sample none)) := by
  rw [exec_mbTake h, afterTake_of_not_ready hr, taken_of_not_ready hr]

theorem exec_mbPublish {x y : Word16} {v : Bool} (h : s.actor = .ing) :
    exec (.mbPublish x y v) s = .next (publish ⟨x, y, v⟩ s).done :=
  runAs_performed h

/-- Settles O17: a Take leaves READY clear, and a Publish overwrites the cell whatever it held. -/
theorem takeOnceAndPublishIdempotent : Obligations.TakeOnceAndPublishIdempotent := by
  constructor
  · intro s t hs h
    rw [exec_mbTake hs] at h
    cases h
    exact exec_mbTake_of_not_ready hs rfl
  · intro s t x y v hs h
    rw [exec_mbPublish hs] at h
    cases h
    exact exec_mbPublish hs

/-! ### Who changes the cell (R31, R60, R122) -/

/-- Clearing READY changes a cell only where READY was 1. -/
theorem ready_of_cleared_ne {m : Mailbox} (h : { m with ready := false } ≠ m) : m.ready = true := by
  cases hr : m.ready
  · exact absurd (by rw [← hr]) h
  · rfl

theorem isTerminator_iff : isTerminator b = true ↔ b = 0x0A#8 ∨ b = 0x0D#8 := by
  simp [isTerminator, Config.chLf, Config.chCr]

/-- Only a terminator publishes (R101 to R105). -/
theorem consumeByte_mb_cases (b : Byte) (s : State) :
    (consumeByte b s).mb = s.mb ∨ (isTerminator b = true ∧ (consumeByte b s).mb.ready = true) := by
  rcases consumeByte_cases b s with ⟨-, -, hc⟩ | ⟨hb, -, hc⟩ | ⟨-, -, hc⟩ | ⟨-, -, hc⟩ <;> rw [hc]
  · exact .inl rfl
  · exact .inr ⟨hb, rfl⟩
  · exact .inl rfl
  · exact .inl rfl

theorem mb_of_calcAxis {a : Axis} {e : F32} (h : calcAxis a e s = .ok t) : t.mb = s.mb := by
  unfold calcAxis at h
  split at h
  · cases h; simp
  · cases h

theorem mb_of_setGains {a : Axis} {kp ki kd : F32} (h : setGains a kp ki kd s = .ok t) : t.mb = s.mb := by
  unfold setGains at h
  split at h
  · cases h; simp
  · cases h

theorem mb_of_answerMove {m : Motor} {g : F32} {sp : Word16} {ac : Byte} (h : answerMove m g sp ac s = .ok t) : t.mb = s.mb := by
  unfold answerMove at h
  split at h
  · cases h; rfl
  · cases h

theorem mb_of_directMove {m : Motor} {g : F32} {sp : Word16} {ac : Byte} (h : directMove m g sp ac s = .ok t) : t.mb = s.mb := by
  unfold directMove at h
  split at h
  · cases h; simp
  · cases h

@[simp] theorem sendTelemetry_mb (x : TelemetryText) (m : TrackingMode) (s : State) : (sendTelemetry x m s).mb = s.mb := by
  rcases sendTelemetry_cases x m s with ⟨-, h⟩ | ⟨e, -, -, h⟩ <;> rw [h]
  rfl

/-- A refused outcome keeps the cell, so an operation keeps it where its effect does. -/
theorem settle_mb {r : Except RefuseReason State} (h : ∀ {u}, r = .ok u → u.mb = s.mb) : (s.settle r).mb = s.mb := by
  cases r with
  | ok u => exact h rfl
  | error _ => rfl

theorem mb_of_runAs {a : Agent} (h : runAs a s u = .next t) (hu : u.mb = s.mb) : t.mb = s.mb := by
  rcases runAs_cases h with ⟨-, rfl⟩ | ⟨-, rfl⟩
  · exact hu
  · rfl

/-- Of what CTL may perform, only MB_TAKE and an enabled SM_TICK change the cell (R60, R151). -/
theorem take_or_tick_of_mb_ne (hp : performer i = .ctl) (h : exec i s = .next t) (hmb : t.mb ≠ s.mb) :
    (i = .smTick ∧ s.sm.en = true) ∨ i = .mbTake := by
  cases i with
  | mbTake => exact .inr rfl
  | smTick =>
    rcases execSmTick_cases h with ⟨-, rfl⟩ | ⟨-, ⟨u, hu, rfl⟩ | ⟨r, -, rfl⟩⟩
    · exact absurd rfl hmb
    · obtain ⟨-, -, -, -, -, -, -, -, -, hkept | ⟨hen, -⟩⟩ := tick_frame hu
      · exact absurd hkept hmb
      · exact .inl ⟨rfl, hen⟩
    · exact absurd rfl hmb
  | decByte | mbPublish | ulTermLf | ulTermCr | ulDigit | ulComma | ulOther => cases hp
  | pidCalc => exact absurd (mb_of_runAs h (settle_mb mb_of_calcAxis)) hmb
  | pidSetParams => exact absurd (mb_of_runAs h (settle_mb mb_of_setGains)) hmb
  | encMove => exact absurd (mb_of_runAs h (settle_mb mb_of_answerMove)) hmb
  | hostMove => exact absurd (mb_of_runAs h (settle_mb mb_of_directMove)) hmb
  | tlmData => exact absurd (mb_of_runAs h (sendTelemetry_mb ..)) hmb
  | pidReset => exact absurd (mb_of_runAs h (State.setPid_mb ..)) hmb
  | hostMotorEnable | frameMove | frameStop | frameEnable => exact absurd (mb_of_runAs h (send_mb ..)) hmb
  | pidGetParams | smEnable | smDisable | encStop | encEnable | hostStopAll | hostSetFlag =>
    exact absurd (mb_of_runAs h rfl) hmb

/-- Of what ING may perform, only a terminator and MB_PUBLISH change the cell, and they leave READY at 1 (R60, R122). -/
theorem publish_of_mb_ne (hwf : i.wf = true) (hp : performer i = .ing) (hs : s.actor = .ing) (h : exec i s = .next t)
    (hmb : t.mb ≠ s.mb) :
    t.mb.ready = true ∧ ((∃ b, ConsumesByte i b ∧ (b = 0x0A#8 ∨ b = 0x0D#8)) ∨ ∃ x y v, i = .mbPublish x y v) := by
  rcases (performer_eq_ing_iff hwf).mp hp with ⟨b, hb⟩ | ⟨x, y, v, rfl⟩
  · have hbyte : exec (.decByte b) s = .next (consumeByte b s).done := runAs_performed hs
    rw [exec_of_consumesByte hb, hbyte] at h
    cases h
    rcases consumeByte_mb_cases b s with hkept | ⟨hterm, hready⟩
    · exact absurd hkept hmb
    · exact ⟨hready, .inl ⟨b, hb, isTerminator_iff.mp hterm⟩⟩
  · rw [exec_mbPublish hs] at h
    cases h
    exact ⟨rfl, .inr ⟨x, y, v, rfl⟩⟩

/-- Settles O18: an offer of the wrong agent is refused, and each agent's own operations change the cell in its own way only. -/
theorem mailboxChangesOnlyByPublishAndTake : Obligations.MailboxChangesOnlyByPublishAndTake := by
  intro i s t hwf h hmb
  have hactor : s.actor = performer i := by
    by_contra hne
    rw [exec_of_wrong_agent hne] at h
    cases h
    exact hmb rfl
  cases hs : s.actor with
  | ing => exact .inl ⟨rfl, publish_of_mb_ne hwf (hactor.symm.trans hs) hs h hmb⟩
  | ctl =>
    obtain ⟨-, hkept | hcleared⟩ := (exec_effect h).frame_of_ctl hs
    · exact absurd hkept hmb
    · have hready : s.mb.ready = true := ready_of_cleared_ne (hcleared ▸ hmb)
      exact .inr ⟨rfl, hready, hcleared, take_or_tick_of_mb_ne (hactor.symm.trans hs) h hmb⟩

end Sys2Proof.Machine
end

section
/-! The operand readers of the decoder (30_encoding.md R82): what each reads back from the encoder's operand, and what it has read when
it hands an operand on. -/

namespace Sys2Proof

variable {i : Instr} {sel : Byte} {p : List Word32} {w : Word32} {x : Except DecodeError Instr}

/-! ### A narrow value in a wide word, zero-extended -/

theorem extractLsb'_setWidth {n m : Nat} (v : BitVec n) (h : n ≤ m) : (v.setWidth m).extractLsb' 0 n = v := by
  rw [← BitVec.setWidth_eq_extractLsb' h, BitVec.setWidth_setWidth_of_le v h, BitVec.setWidth_eq]

theorem setWidth_extractLsb' {n m : Nat} {v : BitVec m} (h : v.toNat < 2 ^ n) : (v.extractLsb' 0 n).setWidth m = v := by
  apply BitVec.eq_of_toNat_eq
  simp [Nat.mod_eq_of_lt h]

/-! ### Reading what the encoder wrote -/

@[simp] theorem selZero_zero : selZero 0x00#8 x = x := if_pos rfl

@[simp] theorem selAxis_sel (a : Axis) (k : Axis → Except DecodeError Instr) : selAxis a.sel k = k a := by cases a <;> rfl

@[simp] theorem selMotor_id (m : Motor) (k : Motor → Except DecodeError Instr) : selMotor m.id k = k m := by cases m <;> rfl

@[simp] theorem selFlag_sel (f : HostFlag) (k : HostFlag → Except DecodeError Instr) : selFlag f.sel k = k f := by cases f <;> rfl

@[simp] theorem payload0_nil : payload0 [] x = x := rfl

@[simp] theorem payload1_singleton (k : Word32 → Except DecodeError Instr) : payload1 [w] k = k w := rfl

@[simp] theorem payload3_triple (a b c : Word32) (k : Word32 → Word32 → Word32 → Except DecodeError Instr) :
    payload3 [a, b, c] k = k a b c := rfl

@[simp] theorem pay16_setWidth (v : Word16) (k : Word16 → Except DecodeError Instr) : pay16 (v.setWidth 32) k = k v := by
  have hv : (v.setWidth 32).toNat < 2 ^ 16 := by rw [BitVec.toNat_setWidth_of_le (by decide)]; exact v.isLt
  rw [pay16, if_pos hv, extractLsb'_setWidth v (by decide)]

@[simp] theorem pay8_setWidth (v : Byte) (k : Byte → Except DecodeError Instr) : pay8 (v.setWidth 32) k = k v := by
  have hv : (v.setWidth 32).toNat < 2 ^ 8 := by rw [BitVec.toNat_setWidth_of_le (by decide)]; exact v.isLt
  rw [pay8, if_pos hv, extractLsb'_setWidth v (by decide)]

@[simp] theorem payBit_bitByte (b : Bool) (k : Bool → Except DecodeError Instr) : payBit ((bitByte b).setWidth 32) k = k b := by
  cases b <;> rfl

/-! ### What a reader that hands its operand on has read -/

theorem Axis.exists_iff {P : Axis → Prop} : (∃ a, P a) ↔ P .horizontal ∨ P .vertical :=
  ⟨fun ⟨a, h⟩ => by cases a <;> simp [h], fun h => h.elim (⟨_, ·⟩) (⟨_, ·⟩)⟩

theorem Motor.exists_iff {P : Motor → Prop} : (∃ m, P m) ↔ P .vertical ∨ P .horizontal :=
  ⟨fun ⟨m, h⟩ => by cases m <;> simp [h], fun h => h.elim (⟨_, ·⟩) (⟨_, ·⟩)⟩

theorem HostFlag.exists_iff {P : HostFlag → Prop} : (∃ f, P f) ↔ P .feedbackEn ∨ P .debugEn :=
  ⟨fun ⟨f, h⟩ => by cases f <;> simp [h], fun h => h.elim (⟨_, ·⟩) (⟨_, ·⟩)⟩

/-- A reader of two codes has read one of them. -/
theorem ite_ite_eq_ok {n : Nat} {v c d : BitVec n} {y : Except DecodeError Instr} {e : DecodeError} (h : c ≠ d) :
    (if v = c then x else if v = d then y else .error e) = .ok i ↔ (v = c ∧ x = .ok i) ∨ (v = d ∧ y = .ok i) := by
  split_ifs with hc hd
  · simp [hc, h]
  · simp [hd, h.symm]
  · simp [hc, hd]

theorem selZero_eq_ok : selZero sel x = .ok i ↔ sel = 0x00#8 ∧ x = .ok i := by
  unfold selZero
  split <;> simp [*]

theorem selAxis_eq_ok {k : Axis → Except DecodeError Instr} : selAxis sel k = .ok i ↔ ∃ a, sel = a.sel ∧ k a = .ok i := by
  rw [Axis.exists_iff]; exact ite_ite_eq_ok (by decide)

theorem selMotor_eq_ok {k : Motor → Except DecodeError Instr} : selMotor sel k = .ok i ↔ ∃ m, sel = m.id ∧ k m = .ok i := by
  rw [Motor.exists_iff]; exact ite_ite_eq_ok (by decide)

theorem selFlag_eq_ok {k : HostFlag → Except DecodeError Instr} : selFlag sel k = .ok i ↔ ∃ f, sel = f.sel ∧ k f = .ok i := by
  rw [HostFlag.exists_iff]; exact ite_ite_eq_ok (by decide)

theorem payload0_eq_ok : payload0 p x = .ok i ↔ p = [] ∧ x = .ok i := by
  unfold payload0
  split <;> simp

theorem payload1_eq_ok {k : Word32 → Except DecodeError Instr} : payload1 p k = .ok i ↔ ∃ a, p = [a] ∧ k a = .ok i := by
  unfold payload1
  split <;> simp

theorem payload3_eq_ok {k : Word32 → Word32 → Word32 → Except DecodeError Instr} :
    payload3 p k = .ok i ↔ ∃ a b c, p = [a, b, c] ∧ k a b c = .ok i := by
  unfold payload3
  split <;> simp

theorem pay16_eq_ok {k : Word16 → Except DecodeError Instr} : pay16 w k = .ok i ↔ ∃ v : Word16, w = v.setWidth 32 ∧ k v = .ok i := by
  constructor
  · intro h
    unfold pay16 at h
    split at h
    · exact ⟨_, (setWidth_extractLsb' ‹_›).symm, h⟩
    · cases h
  · rintro ⟨v, rfl, h⟩
    rwa [pay16_setWidth]

theorem pay8_eq_ok {k : Byte → Except DecodeError Instr} : pay8 w k = .ok i ↔ ∃ v : Byte, w = v.setWidth 32 ∧ k v = .ok i := by
  constructor
  · intro h
    unfold pay8 at h
    split at h
    · exact ⟨_, (setWidth_extractLsb' ‹_›).symm, h⟩
    · cases h
  · rintro ⟨v, rfl, h⟩
    rwa [pay8_setWidth]

theorem payBit_eq_ok {k : Bool → Except DecodeError Instr} : payBit w k = .ok i ↔ ∃ b, w = (bitByte b).setWidth 32 ∧ k b = .ok i := by
  rw [Bool.exists_bool]; exact ite_ite_eq_ok (by decide)

end Sys2Proof
end

section
/-! Operation words (30_encoding.md R82): OPC and SEL of a word, and that a row reads exactly the words it writes. -/

namespace Sys2Proof

theorem decode_opWord (opc sel : Byte) (p : List Word32) : decode (opWord opc sel p) = decodeOp opc sel p := by
  rw [opWord, decode, BitVec.extractLsb'_append_eq_left, BitVec.extractLsb'_append_eq_right]

/-- An operation word is its OPC above its SEL. -/
theorem opWord_extractLsb' (w : Word16) (p : List Word32) : opWord (w.extractLsb' 8 8) (w.extractLsb' 0 8) p = .op w p := by
  rw [opWord, BitVec.extractLsb'_append_extractLsb']

/-- The row an OPC chooses reads the words it writes, and no others (R82). -/
theorem encode_of_decodeOp {opc sel : Byte} {p : List Word32} {i : Instr} (h : decodeOp opc sel p = .ok i) :
    i.wf = true ∧ encode i = opWord opc sel p := by
  unfold decodeOp at h
  generalize hn : opc.toNat = n at h
  obtain rfl : opc = BitVec.ofNat 8 n := by rw [← hn, BitVec.ofNat_toNat, BitVec.setWidth_eq]
  clear hn
  split at h <;> simp only [selZero_eq_ok, selAxis_eq_ok, selMotor_eq_ok, selFlag_eq_ok, payload0_eq_ok, payload1_eq_ok,
    payload3_eq_ok, pay16_eq_ok, pay8_eq_ok, payBit_eq_ok, Except.ok.injEq, reduceCtorEq] at h
  case h_1 => obtain ⟨rfl, rfl⟩ := h; exact ⟨rfl, rfl⟩
  case h_2 => obtain ⟨rfl, _, _, _, rfl, x, rfl, y, rfl, v, rfl, rfl⟩ := h; exact ⟨rfl, rfl⟩
  case h_3 | h_8 | h_9 | h_10 | h_14 => obtain ⟨rfl, rfl, rfl⟩ := h; exact ⟨rfl, rfl⟩
  case h_4 => obtain ⟨a, rfl, e, rfl, rfl⟩ := h; exact ⟨rfl, rfl⟩
  case h_5 | h_7 | h_12 => obtain ⟨a, rfl, rfl, rfl⟩ := h; exact ⟨rfl, rfl⟩
  case h_6 => obtain ⟨a, rfl, kp, ki, kd, rfl, rfl⟩ := h; exact ⟨rfl, rfl⟩
  case h_11 | h_15 => obtain ⟨m, rfl, g, _, _, rfl, sp, rfl, ac, rfl, rfl⟩ := h; exact ⟨rfl, rfl⟩
  case h_13 | h_16 | h_17 => obtain ⟨m, rfl, _, rfl, e, rfl, rfl⟩ := h; exact ⟨rfl, rfl⟩

end Sys2Proof
end

section
/-! The uplink bytes (30_encoding.md R71): the class of each byte, and that the operation of a class hands the decoder that byte. -/

namespace Sys2Proof

open Sys2Proof.Machine Sys2Proof.Statements

theorem digitByte_extractLsb' {b : Byte} (h : 0x30 ≤ b.toNat ∧ b.toNat ≤ 0x39) : 0x3#4 ++ b.extractLsb' 0 4 = b := by
  revert b; decide

theorem isOtherByte_iff {b : Byte} :
    isOtherByte b = true ↔ b ≠ 0x0A#8 ∧ b ≠ 0x0D#8 ∧ b ≠ 0x2C#8 ∧ (b.toNat < 0x30 ∨ 0x39 < b.toNat) := by
  simp [isOtherByte, and_assoc]

/-- Every class a byte can be decoded to (R71). -/
theorem decodeUplink_cases (b : Byte) :
    (b = Config.chLf ∧ decodeUplink b = .ulTermLf) ∨ (b = Config.chCr ∧ decodeUplink b = .ulTermCr) ∨
    (∃ d : BitVec 4, d.toNat ≤ 9 ∧ b = 0x3#4 ++ d ∧ decodeUplink b = .ulDigit d) ∨
    (b = Config.chComma ∧ decodeUplink b = .ulComma) ∨ (isOtherByte b = true ∧ decodeUplink b = .ulOther b) := by
  unfold decodeUplink
  split_ifs with hlf hcr hdigit hcomma
  · exact .inl ⟨hlf, rfl⟩
  · exact .inr (.inl ⟨hcr, rfl⟩)
  · have hb := digitByte_extractLsb' hdigit
    have hd := toNat_digitByte (b.extractLsb' 0 4)
    rw [hb] at hd
    exact .inr (.inr (.inl ⟨_, by omega, hb.symm, rfl⟩))
  · exact .inr (.inr (.inr (.inl ⟨hcomma, rfl⟩)))
  · exact .inr (.inr (.inr (.inr ⟨isOtherByte_iff.mpr ⟨hlf, hcr, hcomma, by omega⟩, rfl⟩)))

theorem encode_decodeUplink (b : Byte) : (decodeUplink b).wf = true ∧ encode (decodeUplink b) = .uplink b := by
  rcases decodeUplink_cases b with ⟨rfl, h⟩ | ⟨rfl, h⟩ | ⟨d, hd, rfl, h⟩ | ⟨rfl, h⟩ | ⟨hb, h⟩ <;> rw [h]
  · exact ⟨rfl, rfl⟩
  · exact ⟨rfl, rfl⟩
  · exact ⟨decide_eq_true hd, rfl⟩
  · exact ⟨rfl, rfl⟩
  · exact ⟨hb, rfl⟩

theorem consumesByte_decodeUplink (b : Byte) : ConsumesByte (decodeUplink b) b := by
  rcases decodeUplink_cases b with ⟨rfl, h⟩ | ⟨rfl, h⟩ | ⟨d, hd, rfl, h⟩ | ⟨rfl, h⟩ | ⟨hb, h⟩ <;> rw [h]
  · rfl
  · rfl
  · exact ⟨hd, toNat_digitByte d⟩
  · rfl
  · exact ⟨hb, rfl⟩

theorem decodeUplink_digit {d : BitVec 4} (h : d.toNat ≤ 9) : decodeUplink (0x3#4 ++ d) = .ulDigit d := by
  revert d; decide

theorem decodeUplink_other {b : Byte} (h : isOtherByte b = true) : decodeUplink b = .ulOther b := by
  obtain ⟨hlf, hcr, hcomma, hdigit⟩ := isOtherByte_iff.mp h
  rw [decodeUplink, if_neg (show b ≠ Config.chLf from hlf), if_neg (show b ≠ Config.chCr from hcr), if_neg (by omega),
    if_neg (show b ≠ Config.chComma from hcomma)]

/-- Settles O5, class by class. -/
theorem uplinkBytesFallInTheirClass : Obligations.UplinkBytesFallInTheirClass := by
  intro b
  refine ⟨?_, ?_, ?_, ?_, ?_⟩
  · rintro rfl; rfl
  · rintro rfl; rfl
  · intro d hd hb
    obtain rfl : b = 0x3#4 ++ d := BitVec.eq_of_toNat_eq (hb.trans (toNat_digitByte d).symm)
    exact congrArg _ (decodeUplink_digit hd)
  · rintro rfl; rfl
  · intro hlf hcr hcomma hdigit
    exact congrArg _ (decodeUplink_other (isOtherByte_iff.mpr ⟨hlf, hcr, hcomma, hdigit⟩))

end Sys2Proof
end

section
/-! Motor frames (30_encoding.md R74 to R76): the operand bytes, and that a frame row reads exactly the bytes it writes. -/

namespace Sys2Proof

/-! ### The operand bytes -/

@[simp] theorem motorOfId_id (m : Motor) : motorOfId m.id = .ok m := by cases m <;> rfl

@[simp] theorem rotationOfByte_byte (r : Rotation) : rotationOfByte r.byte = .ok r := by cases r <;> rfl

@[simp] theorem bitOfByte_bitByte (b : Bool) : bitOfByte (bitByte b) = .ok b := by cases b <;> rfl

theorem id_of_motorOfId {b : Byte} {m : Motor} (h : motorOfId b = .ok m) : b = m.id := by
  unfold motorOfId at h
  split_ifs at h <;> cases h <;> assumption

theorem byte_of_rotationOfByte {b : Byte} {r : Rotation} (h : rotationOfByte b = .ok r) : b = r.byte := by
  unfold rotationOfByte at h
  split_ifs at h <;> cases h <;> assumption

theorem bitByte_of_bitOfByte {b : Byte} {v : Bool} (h : bitOfByte b = .ok v) : b = bitByte v := by
  unfold bitOfByte at h
  split_ifs at h <;> cases h <;> assumption

/-- A 32-bit operand is its four bytes, the high one first (R53). -/
theorem bytes_append_of_word32 (w : Word32) :
    w.extractLsb' 24 8 ++ w.extractLsb' 16 8 ++ w.extractLsb' 8 8 ++ w.extractLsb' 0 8 = w := by
  rw [BitVec.extractLsb'_append_extractLsb'_eq_extractLsb' (start₂ := 24) (start₁ := 16) rfl,
    BitVec.extractLsb'_append_extractLsb'_eq_extractLsb' (start₂ := 16) (start₁ := 8) rfl,
    BitVec.extractLsb'_append_extractLsb']

/-- The bytes of a 32-bit operand put together from four (R53). -/
theorem extractLsb'_of_bytes (p3 p2 p1 p0 : Byte) :
    (p3 ++ p2 ++ p1 ++ p0 : Word32).extractLsb' 24 8 = p3 ∧ (p3 ++ p2 ++ p1 ++ p0 : Word32).extractLsb' 16 8 = p2 ∧
    (p3 ++ p2 ++ p1 ++ p0 : Word32).extractLsb' 8 8 = p1 ∧ (p3 ++ p2 ++ p1 ++ p0 : Word32).extractLsb' 0 8 = p0 := by
  refine ⟨?_, ?_, ?_, BitVec.extractLsb'_append_eq_right⟩
  · rw [BitVec.extractLsb'_append_eq_of_le (by decide), BitVec.extractLsb'_append_eq_of_le (by decide),
      BitVec.extractLsb'_append_eq_left]
  · rw [BitVec.extractLsb'_append_eq_of_le (by decide), BitVec.extractLsb'_append_eq_of_le (by decide),
      BitVec.extractLsb'_append_eq_right]
  · rw [BitVec.extractLsb'_append_eq_of_le (by decide), BitVec.extractLsb'_append_eq_right]

/-- A MOVE frame of operands put together from bytes has those bytes (R74). -/
theorem moveFrame_append (m : Motor) (d : Rotation) (sh sl ac p3 p2 p1 p0 : Byte) :
    moveFrame m d (sh ++ sl) ac (p3 ++ p2 ++ p1 ++ p0) =
      [m.id, Config.codeMove, d.byte, sh, sl, ac, p3, p2, p1, p0, Config.modeByte, Config.syncByte, Config.checksum] := by
  obtain ⟨h3, h2, h1, h0⟩ := extractLsb'_of_bytes p3 p2 p1 p0
  rw [moveFrame, BitVec.extractLsb'_append_eq_left, BitVec.extractLsb'_append_eq_right, h3, h2, h1, h0]

/-! ### The frames -/

theorem frameOfSend_moveFrame (m : Motor) (d : Rotation) (sp : Word16) (ac : Byte) (p : Word32) :
    frameOfSend (moveFrame m d sp ac p) = .ok (.frameMove m d sp ac p) := by
  have hsp : sp.extractLsb' 8 8 ++ sp.extractLsb' 0 8 = sp := BitVec.extractLsb'_append_extractLsb'
  simp [frameOfSend, moveFrame, hsp, bytes_append_of_word32]

theorem frameOfSend_stopFrame (m : Motor) : frameOfSend (stopFrame m) = .ok (.frameStop m) := by
  simp [frameOfSend, stopFrame]

theorem frameOfSend_enableFrame (m : Motor) (en : Bool) : frameOfSend (enableFrame m en) = .ok (.frameEnable m en) := by
  simp [frameOfSend, enableFrame]

/-- A frame row has written the bytes it reads (R74 to R76). -/
theorem encode_of_frameOfSend {bytes : List Byte} {i : Instr} (h : frameOfSend bytes = .ok i) :
    i.wf = true ∧ encode i = .send bytes := by
  unfold frameOfSend at h
  split at h
  case h_1 =>
    split_ifs at h with hc
    obtain ⟨rfl, rfl, rfl, rfl⟩ := hc
    split at h
    · cases h
      rename_i hm hd
      rw [id_of_motorOfId hm, byte_of_rotationOfByte hd]
      exact ⟨rfl, congrArg _ (moveFrame_append ..)⟩
    · cases h
  case h_2 =>
    split_ifs at h with hc
    obtain ⟨rfl, rfl, rfl, rfl⟩ := hc
    split at h
    · cases h
      rename_i hm
      rw [id_of_motorOfId hm]
      exact ⟨rfl, rfl⟩
    · cases h
  case h_3 =>
    split_ifs at h with hc
    obtain ⟨rfl, rfl, rfl, rfl⟩ := hc
    split at h
    · cases h
      rename_i hm he
      rw [id_of_motorOfId hm, bitByte_of_bitOfByte he]
      exact ⟨rfl, rfl⟩
    · cases h
  case h_4 => cases h

end Sys2Proof
end

section
/-! Telemetry lines (30_encoding.md R80): a line is its fields with commas between them, and splitting it gives the fields back. -/

namespace Sys2Proof

theorem splitFields_eq_splitOn (bytes : List Byte) : splitFields bytes = bytes.splitOn Config.chComma := by
  induction bytes with
  | nil => rfl
  | cons b bs ih =>
    rw [splitFields, ih, List.splitOn_cons_eq_if_modifyHead]
    cases h : bs.splitOn Config.chComma with
    | nil => exact absurd h (List.splitOn_ne_nil _ _)
    | cons f fs => simp

/-- The eight fields of a line (R80). -/
def lineFields (t : TelemetryText) (m : TrackingMode) : List (List Byte) :=
  [dataTag, t.tx, t.ty, t.dx, t.dy, t.pidH, t.pidV, [modeDigit m, Config.chCr, Config.chLf]]

theorem telemetryLine_eq_intercalate (t : TelemetryText) (m : TrackingMode) :
    telemetryLine t m = [Config.chComma].intercalate (lineFields t m) := by
  simp [telemetryLine, lineFields, List.intercalate, List.intersperse]

theorem comma_notMem_of_isFieldText {f : List Byte} (h : isFieldText f = true) : Config.chComma ∉ f := by
  intro hc
  simp only [isFieldText, Bool.and_eq_true, List.all_eq_true] at h
  exact absurd (h.2 _ hc) (by decide)

theorem TelemetryText.wf_iff (t : TelemetryText) : t.wf = true ↔ isFieldText t.tx = true ∧ isFieldText t.ty = true ∧
    isFieldText t.dx = true ∧ isFieldText t.dy = true ∧ isFieldText t.pidH = true ∧ isFieldText t.pidV = true := by
  simp [TelemetryText.wf, and_assoc]

theorem splitFields_telemetryLine {t : TelemetryText} (h : t.wf = true) (m : TrackingMode) :
    splitFields (telemetryLine t m) = lineFields t m := by
  rw [splitFields_eq_splitOn, telemetryLine_eq_intercalate]
  refine List.splitOn_intercalate _ ?_ (by simp [lineFields])
  obtain ⟨h1, h2, h3, h4, h5, h6⟩ := t.wf_iff.mp h
  have htag : Config.chComma ∉ dataTag := by decide
  have hend : Config.chComma ∉ [modeDigit m, Config.chCr, Config.chLf] := by cases m <;> decide
  simp only [lineFields, List.forall_mem_cons]
  exact ⟨htag, comma_notMem_of_isFieldText h1, comma_notMem_of_isFieldText h2, comma_notMem_of_isFieldText h3,
    comma_notMem_of_isFieldText h4, comma_notMem_of_isFieldText h5, comma_notMem_of_isFieldText h6, hend, nofun⟩

@[simp] theorem modeOfDigit_modeDigit (m : TrackingMode) : modeOfDigit (modeDigit m) = .ok m := by cases m <;> rfl

theorem modeDigit_of_modeOfDigit {b : Byte} {m : TrackingMode} (h : modeOfDigit b = .ok m) : b = modeDigit m := by
  unfold modeOfDigit at h
  split_ifs at h <;> cases h <;> assumption

theorem decodeTelemetry_telemetryLine {t : TelemetryText} (h : t.wf = true) (m : TrackingMode) :
    decodeTelemetry (telemetryLine t m) = .ok (.tlmData t m) := by
  simp [decodeTelemetry, splitFields_telemetryLine h, lineFields, h]

/-- A line that is read is the line of its texts and its mode. -/
theorem encode_of_decodeTelemetry {bytes : List Byte} {i : Instr} (h : decodeTelemetry bytes = .ok i) :
    i.wf = true ∧ encode i = .telemetry bytes := by
  unfold decodeTelemetry at h
  split at h
  · rename_i hs
    dsimp only at h
    split_ifs at h with hc
    obtain ⟨rfl, rfl, rfl, hwf⟩ := hc
    split at h
    · rename_i hm
      cases h
      rw [modeDigit_of_modeOfDigit hm, splitFields_eq_splitOn] at hs
      refine ⟨hwf, congrArg Words.telemetry ?_⟩
      rw [telemetryLine_eq_intercalate, lineFields, ← hs, List.intercalate_splitOn]
    · cases h
  · cases h

end Sys2Proof
end

section
/-! Decoder and encoder agree (30_encoding.md R71, R74 to R76, R80, R82, R83). -/

namespace Sys2Proof

/-- Settles O1, by the operations: the words of each are read back by the reader of their port. -/
theorem decodeOfEncodeIsTheOperation : Obligations.DecodeOfEncodeIsTheOperation := by
  intro i hwf
  cases i with
  | ulTermLf | ulTermCr | ulComma => rfl
  | ulDigit d => exact congrArg _ (decodeUplink_digit (of_decide_eq_true hwf))
  | ulOther b => exact congrArg _ (decodeUplink_other hwf)
  | frameMove m d sp ac p => exact frameOfSend_moveFrame m d sp ac p
  | frameStop m => exact frameOfSend_stopFrame m
  | frameEnable m en => exact frameOfSend_enableFrame m en
  | tlmData t m => exact decodeTelemetry_telemetryLine hwf m
  | _ => simp [encode, decode_opWord, decodeOp]

/-- Settles O2, by the ports: each reader accepts only what the encoder writes. -/
theorem encodeOfDecodeIsTheWords : Obligations.EncodeOfDecodeIsTheWords := by
  intro ws i h
  cases ws with
  | uplink b =>
    cases h
    exact encode_decodeUplink b
  | op w p =>
    rw [← opWord_extractLsb' w p]
    exact encode_of_decodeOp h
  | send bytes => exact encode_of_frameOfSend h
  | telemetry bytes => exact encode_of_decodeTelemetry h

/-- Settles O4, by evaluating the decoder. -/
theorem writtenOutWordsDecode : Obligations.WrittenOutWordsDecode := ⟨rfl, rfl, rfl, rfl, rfl, rfl, rfl⟩

end Sys2Proof
end

section
/-! The rows of R82 as its table lists them (30_encoding.md R82 to R84): which words each operand reader hands on, in numbers. -/

namespace Sys2Proof

open Sys2Proof.Statements

variable {sel : Byte} {p : List Word32} {w : Word32} {x : Except DecodeError Instr}

theorem exists_ite_ite_eq_ok {n : Nat} {v c d : BitVec n} {y : Except DecodeError Instr} {e : DecodeError} (h : c ≠ d) :
    (∃ i, (if v = c then x else if v = d then y else .error e) = .ok i) ↔
      (v.toNat = c.toNat ∧ ∃ i, x = .ok i) ∨ (v.toNat = d.toNat ∧ ∃ i, y = .ok i) := by
  simp only [ite_ite_eq_ok h, exists_or, exists_and_left, BitVec.toNat_inj]

theorem exists_selZero_eq_ok : (∃ i, selZero sel x = .ok i) ↔ sel.toNat = 0 ∧ ∃ i, x = .ok i := by
  simp only [selZero_eq_ok, exists_and_left, ← BitVec.toNat_inj, BitVec.toNat_ofNat, Nat.zero_mod]

theorem exists_selAxis_eq_ok {k : Axis → Except DecodeError Instr} : (∃ i, selAxis sel k = .ok i) ↔
    (sel.toNat = 0 ∧ ∃ i, k .horizontal = .ok i) ∨ (sel.toNat = 1 ∧ ∃ i, k .vertical = .ok i) :=
  exists_ite_ite_eq_ok (by decide)

theorem exists_selMotor_eq_ok {k : Motor → Except DecodeError Instr} : (∃ i, selMotor sel k = .ok i) ↔
    (sel.toNat = 1 ∧ ∃ i, k .vertical = .ok i) ∨ (sel.toNat = 2 ∧ ∃ i, k .horizontal = .ok i) :=
  exists_ite_ite_eq_ok (by decide)

theorem exists_selFlag_eq_ok {k : HostFlag → Except DecodeError Instr} : (∃ i, selFlag sel k = .ok i) ↔
    (sel.toNat = 0 ∧ ∃ i, k .feedbackEn = .ok i) ∨ (sel.toNat = 1 ∧ ∃ i, k .debugEn = .ok i) :=
  exists_ite_ite_eq_ok (by decide)

theorem exists_payload0_eq_ok : (∃ i, payload0 p x = .ok i) ↔ p = [] ∧ ∃ i, x = .ok i := by
  simp only [payload0_eq_ok, exists_and_left]

theorem exists_payload1_eq_ok {k : Word32 → Except DecodeError Instr} :
    (∃ i, payload1 p k = .ok i) ↔ ∃ a, p = [a] ∧ ∃ i, k a = .ok i := by
  simp only [payload1_eq_ok, exists_comm (α := Instr), exists_and_left]

theorem exists_payload3_eq_ok {k : Word32 → Word32 → Word32 → Except DecodeError Instr} :
    (∃ i, payload3 p k = .ok i) ↔ ∃ a b c, p = [a, b, c] ∧ ∃ i, k a b c = .ok i := by
  simp only [payload3_eq_ok, exists_comm (α := Instr), exists_and_left]

theorem exists_pay16_eq_ok {k : Word16 → Except DecodeError Instr} :
    (∃ i, pay16 w k = .ok i) ↔ w.toNat < 2 ^ 16 ∧ ∃ i, k (w.extractLsb' 0 16) = .ok i := by
  unfold pay16
  split_ifs with h
  · exact (and_iff_right h).symm
  · exact iff_of_false nofun fun hw => h hw.1

theorem exists_pay8_eq_ok {k : Byte → Except DecodeError Instr} :
    (∃ i, pay8 w k = .ok i) ↔ w.toNat < 2 ^ 8 ∧ ∃ i, k (w.extractLsb' 0 8) = .ok i := by
  unfold pay8
  split_ifs with h
  · exact (and_iff_right h).symm
  · exact iff_of_false nofun fun hw => h hw.1

theorem exists_payBit_eq_ok {k : Bool → Except DecodeError Instr} : (∃ i, payBit w k = .ok i) ↔
    (w.toNat = 0 ∧ ∃ i, k false = .ok i) ∨ (w.toNat = 1 ∧ ∃ i, k true = .ok i) :=
  exists_ite_ite_eq_ok (by decide)

theorem forall₂_one {R : Word32 → Nat → Prop} {n : Nat} : List.Forall₂ R p [n] ↔ ∃ a, p = [a] ∧ R a n := by
  simp [List.forall₂_cons_right_iff, and_comm]

theorem forall₂_three {R : Word32 → Nat → Prop} {l m n : Nat} :
    List.Forall₂ R p [l, m, n] ↔ ∃ a b c, p = [a, b, c] ∧ R a l ∧ R b m ∧ R c n := by
  constructor
  · rintro (_ | ⟨ha, _ | ⟨hb, _ | ⟨hc, _ | _⟩⟩⟩)
    exact ⟨_, _, _, rfl, ha, hb, hc⟩
  · rintro ⟨a, b, c, rfl, ha, hb, hc⟩
    exact .cons ha (.cons hb (.cons hc .nil))

/-! ### The table -/

/-- No OPC stands in two rows, so the row of an OPC is the first one found. -/
theorem exists_row_iff {n : Nat} {P : OpRow → Prop} :
    (∃ r ∈ opRows, n = r.opc ∧ P r) ↔ ∃ r ∈ opRows.find? (fun r => n = r.opc), P r := by
  have hnodup : (opRows.map OpRow.opc).Nodup := by decide
  have hfound : ∀ r ∈ opRows.find? (fun r => n = r.opc), r ∈ opRows ∧ n = r.opc := fun r hfind =>
    ⟨List.mem_of_find?_eq_some hfind, by simpa using List.find?_some hfind⟩
  constructor
  · rintro ⟨r, hr, hn, hP⟩
    have hsome := (List.find?_isSome (p := fun r => n = r.opc)).mpr ⟨r, hr, decide_eq_true hn⟩
    obtain ⟨r', hfind⟩ := Option.isSome_iff_exists.mp hsome
    obtain ⟨hr', hn'⟩ := hfound r' hfind
    obtain rfl := List.inj_on_of_nodup_map hnodup hr hr' (hn.symm.trans hn')
    exact ⟨r, hfind, hP⟩
  · rintro ⟨r, hfind, hP⟩
    obtain ⟨hr, hn⟩ := hfound r hfind
    exact ⟨r, hr, hn, hP⟩

theorem toNat_lt_two_pow_32 (w : Word32) : w.toNat < 4294967296 := w.isLt

/-- R82: an operation word spells an operation exactly where the row of its OPC lists its SEL and its payload words. -/
theorem exists_decodeOp_eq_ok (opc : Byte) : (∃ i, decodeOp opc sel p = .ok i) ↔
    ∃ r ∈ opRows, opc.toNat = r.opc ∧ (∀ l, r.sels = some l → sel.toNat ∈ l) ∧
      List.Forall₂ (fun (x : Word32) n => x.toNat < 2 ^ n) p r.widths := by
  rw [exists_row_iff]
  unfold decodeOp
  split
  case h_18 => simp_all [opRows]
  all_goals simp [*, opRows, exists_selZero_eq_ok, exists_selAxis_eq_ok, exists_selMotor_eq_ok, exists_selFlag_eq_ok,
    exists_payload0_eq_ok, exists_payload1_eq_ok, exists_payload3_eq_ok, exists_pay16_eq_ok, exists_pay8_eq_ok,
    exists_payBit_eq_ok, forall₂_one, forall₂_three, toNat_lt_two_pow_32, Nat.le_one_iff_eq_zero_or_eq_one, ← or_and_right]

/-- Settles O3: the OPC and the SEL of a word are its two bytes, and the decoder follows the rows. -/
theorem operationWordsAreTheTablesRows : Obligations.OperationWordsAreTheTablesRows := by
  intro w p
  have hopc : (w.extractLsb' 8 8).toNat = w.toNat / 256 := by
    rw [BitVec.extractLsb'_toNat, Nat.shiftRight_eq_div_pow]
    omega
  have hsel : (w.extractLsb' 0 8).toNat = w.toNat % 256 := by
    rw [BitVec.extractLsb'_toNat, Nat.shiftRight_zero]
  rw [decode, exists_decodeOp_eq_ok, hopc, hsel]
  rfl

end Sys2Proof
end

section
/-! Offered words that spell nothing (30_encoding.md R79, R80, R83): an operation word is refused, any other bytes are passed over. -/

namespace Sys2Proof.Machine

open Sys2Proof.Statements

theorem step_of_unspelled {s : State} {o : Offer} {rest : List Offer} (h : s.inbox = o :: rest)
    (hd : ∀ i, decode o.words ≠ .ok i) : step s = .next (unspelled o.words (s.takeOffer o rest)) := by
  cases hw : decode o.words with
  | ok i => exact absurd hw (hd i)
  | error e => exact step_of_undecoded h hw

/-! ### The frames a row spells -/

theorem emitted_moveFrame (m : Motor) (d : Rotation) (sp : Word16) (ac : Byte) (p : Word32) : Emitted m (moveFrame m d sp ac p) :=
  .inl ⟨d.byte, by cases d <;> decide, _, _, _, _, _, _, _, by cases m <;> rfl⟩

theorem emitted_stopFrame (m : Motor) : Emitted m (stopFrame m) := .inr (.inl (by cases m <;> rfl))

theorem emitted_enableFrame (m : Motor) (en : Bool) : Emitted m (enableFrame m en) :=
  .inr (.inr ⟨bitByte en, by cases en <;> decide, by cases m <;> rfl⟩)

theorem emitted_of_encode {i : Instr} {f : Frame} (h : encode i = .send f) : ∃ m, Emitted m f := by
  cases i with
  | frameMove m d sp ac p => cases h; exact ⟨m, emitted_moveFrame m d sp ac p⟩
  | frameStop m => cases h; exact ⟨m, emitted_stopFrame m⟩
  | frameEnable m en => cases h; exact ⟨m, emitted_enableFrame m en⟩
  | _ => cases h

/-! ### The lines a row spells -/

theorem isFieldText_iff {t : List Byte} : isFieldText t = true ↔ FieldText t := by
  simp [isFieldText, isTextByte, FieldText, and_assoc]

theorem wf_iff_fieldTexts {t : TelemetryText} : t.wf = true ↔ FieldTexts t := by
  simp only [t.wf_iff, FieldTexts, isFieldText_iff]

theorem telemetryLine_eq_lineBytes (t : TelemetryText) (m : TrackingMode) : telemetryLine t m = lineBytes t m := by
  cases m <;> simp [telemetryLine, lineBytes, dataTag, modeDigit, TrackingMode.code, Config.chComma, Config.chCr, Config.chLf]

theorem lineBytes_of_encode {i : Instr} {bytes : List Byte} (hwf : i.wf = true) (h : encode i = .telemetry bytes) :
    ∃ t m, FieldTexts t ∧ bytes = lineBytes t m := by
  cases i with
  | tlmData t m => cases h; exact ⟨t, m, wf_iff_fieldTexts.mp hwf, telemetryLine_eq_lineBytes t m⟩
  | _ => cases h

/-- Settles O7: what decodes is a row's word (O3), or an emitted frame or a line that the encoder writes (O2). -/
theorem illegalWordsAreRefused : Obligations.IllegalWordsAreRefused := by
  refine ⟨?_, ?_, ?_⟩
  · intro s a w p rest h hrows
    refine step_of_unspelled h fun i hi => ?_
    obtain ⟨r, hr, hspells⟩ := (operationWordsAreTheTablesRows w p).mp ⟨i, hi⟩
    exact hrows r hr hspells
  · intro s a bytes rest h hframes
    refine step_of_unspelled h fun i hi => ?_
    obtain ⟨m, hm⟩ := emitted_of_encode (encodeOfDecodeIsTheWords _ i hi).2
    exact hframes m hm
  · intro s a bytes rest h hlines
    refine step_of_unspelled h fun i hi => ?_
    obtain ⟨hwf, henc⟩ := encodeOfDecodeIsTheWords _ i hi
    obtain ⟨t, m, ht, hbytes⟩ := lineBytes_of_encode hwf henc
    exact hlines t m ht hbytes

end Sys2Proof.Machine
end

section
/-! The frames of the encoder as the bytes of R74 to R76, and a frame handed to Send (45_motion_encoder.md R186, R187, R189). -/

namespace Sys2Proof.Machine

open Sys2Proof.Statements

variable {s : State}

theorem stopFrame_eq_stopBytes (m : Motor) : stopFrame m = stopBytes m := by cases m <;> rfl

theorem enableFrame_eq_enableBytes (m : Motor) (en : Bool) : enableFrame m en = enableBytes m en := by cases m <;> rfl

theorem moveFrame_eq_moveBytes (m : Motor) (d : Rotation) (sp : Word16) (ac : Byte) (p : Word32) :
    moveFrame m d sp ac p = moveBytes m (dirByte d) sp ac p.toNat := by
  have hid : m.id = idByte m := by cases m <;> rfl
  have hdir : d.byte = dirByte d := by cases d <;> rfl
  simp [moveFrame, moveBytes, hid, hdir, BitVec.extractLsb', Nat.shiftRight_eq_div_pow, Config.codeMove, Config.modeByte,
    Config.syncByte, Config.checksum]

theorem send_done_eq_withSent (m : Motor) (f : Frame) (s : State) : (send m f s).done = withSent s m f := by cases m <;> rfl

/-- Settles O31: performed by CTL, both answer the frame of their motor. -/
theorem encStopAndEnableAnswerTheirFrames : Obligations.EncStopAndEnableAnswerTheirFrames := by
  intro m en s hs
  rw [← stopFrame_eq_stopBytes, ← enableFrame_eq_enableBytes]
  exact ⟨runAs_performed hs, runAs_performed hs⟩

/-- Settles O46: performed by CTL, each row is a Send of its frame. -/
theorem framesAreIssuedToTheirMotor : Obligations.FramesAreIssuedToTheirMotor := by
  intro m dir sp ac p en s hs
  rw [← moveFrame_eq_moveBytes, ← stopFrame_eq_stopBytes, ← enableFrame_eq_enableBytes, ← send_done_eq_withSent,
    ← send_done_eq_withSent, ← send_done_eq_withSent]
  exact ⟨runAs_performed hs, runAs_performed hs, runAs_performed hs⟩

end Sys2Proof.Machine
end

section
/-! The bytes of a line, offered to ING one by one (30_encoding.md R72; 41_sample_decoder.md R101, R103, R104, R110). -/

namespace Sys2Proof.Machine

open Sys2Proof.Statements

variable {s : State} {o : Offer} {rest : List Offer} {b : Byte}

theorem run_succ_of_step {M : Host.Core} {u v : M.State} {k : Nat} (h : M.step u = .next v) : M.run (k + 1) u = M.run k v := by
  rw [Host.Core.run, h]

/-! ### One byte -/

theorem digitOrComma_eq_isAccepted (b : Byte) : DigitOrComma b = isAccepted b := rfl

/-- Both spellings of a byte are operations that hand the decoder that byte (R71, R82). -/
theorem decode_of_spellsByte {ws : Words} (h : SpellsByte b ws) : ∃ i, decode ws = .ok i ∧ ConsumesByte i b := by
  rcases h with rfl | rfl
  · exact ⟨.decByte b, decodeOfEncodeIsTheOperation (.decByte b) rfl, rfl⟩
  · exact ⟨decodeUplink b, rfl, consumesByte_decodeUplink b⟩

/-- The offer of a byte to ING is the decoder's transition on it (R100). -/
theorem step_of_spellsByte (hi : s.inbox = o :: rest) (ha : o.agent = .ing) (hw : SpellsByte b o.words) :
    step s = .next (consumeByte b (s.takeOffer o rest)).done := by
  obtain ⟨i, hd, hc⟩ := decode_of_spellsByte hw
  rw [step_of_decoded hi hd, exec_of_consumesByte hc]
  exact runAs_performed ha

theorem length_text (l : LineRegs) : l.text.length = l.li.val := by
  simp [LineRegs.text]

/-- A byte that is no terminator extends the text where it is a digit or a comma, below 31 bytes, and changes nothing otherwise
(R101, R103). -/
theorem consumeByte_of_not_terminator (hb : b ≠ 0x0A#8 ∧ b ≠ 0x0D#8) (hroom : DigitOrComma b = true → s.line.text.length < 31) :
    ∃ l : LineRegs, l.text = s.line.text ++ [b].filter DigitOrComma ∧ consumeByte b s = s.setLine l := by
  have hterm : isTerminator b ≠ true := fun h => (isTerminator_iff.mp h).elim hb.1 hb.2
  rcases consumeByte_cases b s with ⟨h, -, -⟩ | ⟨h, -, -⟩ | ⟨-, hacc, h⟩ | ⟨-, hacc, h⟩
  · exact absurd h hterm
  · exact absurd h hterm
  · rw [← digitOrComma_eq_isAccepted] at hacc
    have hlt : s.line.li.val < 31 := length_text s.line ▸ hroom hacc
    exact ⟨_, by rw [text_accept_of_lt hlt]; simp [hacc], h⟩
  · rw [← digitOrComma_eq_isAccepted] at hacc
    exact ⟨s.line, by simp [hacc], h⟩

/-- A terminator publishes a text that is not empty (R104). -/
theorem consumeByte_of_terminator (hb : b = 0x0A#8 ∨ b = 0x0D#8) (ht : s.line.text ≠ []) :
    consumeByte b s = (publish (parse s.line.text) s).setLine { s.line with li := 0 } := by
  have hterm : isTerminator b = true := isTerminator_iff.mpr hb
  rcases consumeByte_cases b s with ⟨-, hli, -⟩ | ⟨-, -, h⟩ | ⟨h, -, -⟩ | ⟨h, -, -⟩
  · exact absurd (text_of_li_zero hli) ht
  · exact h
  · exact absurd hterm (Bool.eq_false_iff.mp h)
  · exact absurd hterm (Bool.eq_false_iff.mp h)

/-! ### The whole line -/

/-- The state after a line's bytes and terminator: the sample published, the rest of the offers left to perform. -/
def lineTaken (s : State) (smp : Sample) (line : LineRegs) (rest : List Offer) : State :=
  { publish smp s with line := line, actor := .ing, inbox := rest, result := .nothing }

/-- The bytes of a line still to come publish the parse of the text so far and of their digits and commas, where these are 1 to 31
together. -/
theorem run_line {bytes : List Byte} {term : Byte} {offers : List Offer} (hterm : term = 0x0A#8 ∨ term = 0x0D#8)
    (hbytes : ∀ b ∈ bytes, b ≠ 0x0A#8 ∧ b ≠ 0x0D#8)
    (hoffers : List.Forall₂ (fun (o : Offer) b => o.agent = .ing ∧ SpellsByte b o.words) offers (bytes ++ [term]))
    (hinbox : s.inbox = offers ++ rest) (hne : s.line.text ++ bytes.filter DigitOrComma ≠ [])
    (hlen : (s.line.text ++ bytes.filter DigitOrComma).length ≤ 31) :
    ∃ line : LineRegs, line.li = 0 ∧ Host.Core.run core (bytes.length + 1) s =
      .next (lineTaken s (parse (s.line.text ++ bytes.filter DigitOrComma)) line rest) := by
  induction bytes generalizing s offers with
  | nil =>
    obtain ⟨o, _, ⟨ha, hw⟩, hnil, rfl⟩ := List.forall₂_cons_right_iff.mp hoffers
    obtain rfl := List.forall₂_nil_right_iff.mp hnil
    rw [List.filter_nil, List.append_nil] at hne
    have hstep : step s = .next (consumeByte term (s.takeOffer o rest)).done := step_of_spellsByte hinbox ha hw
    rw [consumeByte_of_terminator (s := s.takeOffer o rest) hterm hne] at hstep
    refine ⟨{ s.line with li := 0 }, rfl, ?_⟩
    rw [List.length_nil, run_succ_of_step (M := core) hstep, List.filter_nil, List.append_nil, lineTaken, ← ha]
    rfl
  | cons b bs ih =>
    obtain ⟨o, os, ⟨ha, hw⟩, hos, rfl⟩ := List.forall₂_cons_right_iff.mp hoffers
    obtain ⟨hb, hbs⟩ := List.forall_mem_cons.mp hbytes
    have hroom : DigitOrComma b = true → s.line.text.length < 31 := by
      intro hd
      rw [List.filter_cons_of_pos hd, List.length_append, List.length_cons] at hlen
      omega
    have hstep : step s = .next (consumeByte b (s.takeOffer o (os ++ rest))).done := step_of_spellsByte hinbox ha hw
    obtain ⟨l, hl, hc⟩ := consumeByte_of_not_terminator (s := s.takeOffer o (os ++ rest)) hb hroom
    rw [hc] at hstep
    have htext : s.line.text ++ (b :: bs).filter DigitOrComma = l.text ++ bs.filter DigitOrComma := by
      rw [hl, List.append_assoc, ← List.filter_append]; rfl
    rw [htext] at hne hlen ⊢
    rw [List.length_cons, run_succ_of_step (M := core) hstep]
    exact ih hbs hos rfl hne hlen

/-- Settles O13: the line is empty at first, so its text is what the bytes add. -/
theorem lineOfBytesGivesItsSample : Obligations.LineOfBytesGivesItsSample := by
  intro s bytes term offers rest hli hterm hbytes hpos hlen hoffers hinbox
  have htext : s.line.text = [] := text_of_li_zero hli
  have hrun := run_line hterm hbytes hoffers hinbox
  rw [htext, List.nil_append] at hrun
  exact hrun (List.ne_nil_of_length_pos hpos) hlen

end Sys2Proof.Machine
end

section
/-! One uplink byte, by its class (41_sample_decoder.md R100 to R105). -/

namespace Sys2Proof.Machine

open Sys2Proof.Statements

variable {i : Instr} {s : State} {b : Byte} {l : LineRegs}

/-- ING's operation on a byte is the decoder's transition on it (R71, R100). -/
theorem exec_byte_of_ing (h : ConsumesByte i b) (hs : s.actor = .ing) : exec i s = .next (consumeByte b s).done :=
  (exec_of_consumesByte h).trans (runAs_performed hs)

theorem not_isTerminator (hlf : b ≠ 0x0A#8) (hcr : b ≠ 0x0D#8) : ¬ isTerminator b = true :=
  fun h => (isTerminator_iff.mp h).elim hlf hcr

theorem not_isTerminator_of_digitOrComma (h : DigitOrComma b = true) : ¬ isTerminator b = true := by
  refine not_isTerminator ?_ ?_ <;> rintro rfl <;> cases h

theorem consumeByte_of_accepted (h : DigitOrComma b = true) : consumeByte b s = s.setLine (accept b s.line) := by
  rw [consumeByte, if_neg (not_isTerminator_of_digitOrComma h), if_pos ((digitOrComma_eq_isAccepted b).symm.trans h)]

theorem consumeByte_of_other (h : DigitOrComma b = false) (hlf : b ≠ 0x0A#8) (hcr : b ≠ 0x0D#8) : consumeByte b s = s := by
  have hacc : ¬ isAccepted b = true := Bool.eq_false_iff.mp ((digitOrComma_eq_isAccepted b).symm.trans h)
  rw [consumeByte, if_neg (not_isTerminator hlf hcr), if_neg hacc]

/-- A terminator leaves an empty line and everything else alone (R105). -/
theorem consumeByte_of_terminator_empty (hb : b = 0x0A#8 ∨ b = 0x0D#8) (hli : s.line.li = 0) : consumeByte b s = s := by
  rw [consumeByte, if_pos (isTerminator_iff.mpr hb), terminate, if_pos hli]

theorem text_ne_nil (h : l.li ≠ 0) : l.text ≠ [] := fun ht =>
  h (Fin.ext ((length_text l).symm.trans (congrArg List.length ht)))

/-- Below 31 bytes ACCEPT writes its byte at LI and no other cell of the buffer (R101). -/
theorem accept_lb (h : l.li.val < 31) (j : Fin 32) : (accept b l).lb[j] = if j = l.li then b else l.lb[j] := by
  rw [accept_of_lt h]
  simp only [Fin.getElem_fin, Vector.getElem_set, Fin.ext_iff, eq_comm]

/-- Settles O10: a byte that is neither accepted nor a terminator reaches no case of the decoder that writes. -/
theorem otherByteIsIgnored : Obligations.OtherByteIsIgnored := by
  intro i b s hc hs hother hlf hcr
  rw [exec_byte_of_ing hc hs, consumeByte_of_other hother hlf hcr]
  rfl

/-- Settles O9: the byte is ACCEPTed, below 31 bytes or at 31. -/
theorem acceptedByteIsAppendedOrOverflows : Obligations.AcceptedByteIsAppendedOrOverflows := by
  intro i b s hc hs hacc
  rw [exec_byte_of_ing hc hs, consumeByte_of_accepted hacc]
  constructor
  · intro hlt
    exact ⟨accept b s.line, accept_li hlt, accept_lb hlt, rfl⟩
  · intro hfull
    rw [accept_of_full hfull]
    rfl

/-- Settles O11: a terminator publishes where the text is not empty, and an empty line is kept. -/
theorem terminatorPublishesTheLine : Obligations.TerminatorPublishesTheLine := by
  intro i b s hc hs hterm
  rw [exec_byte_of_ing hc hs]
  constructor
  · intro hli
    rw [consumeByte_of_terminator hterm (text_ne_nil hli)]
    rfl
  · intro hli
    rw [consumeByte_of_terminator_empty hterm hli]
    rfl

end Sys2Proof.Machine
end

section
/-! A line of exactly 32 digits and commas publishes nothing (41_sample_decoder.md R102, R105, R110). LI counts the accepted bytes
modulo 32: 31 of them fill the line and the next one empties it. -/

namespace Sys2Proof.Machine

open Sys2Proof.Statements

variable {s : State} {b : Byte} {rest : List Offer}

/-- ACCEPT advances LI modulo 32 (R101, R102). -/
theorem accept_li_mod (b : Byte) (l : LineRegs) : (accept b l).li.val = (l.li.val + 1) % 32 := by
  rcases Nat.lt_or_eq_of_le (Nat.le_of_lt_succ l.li.isLt) with hlt | hfull
  · rw [accept_li hlt, Nat.mod_eq_of_lt (Nat.succ_lt_succ hlt)]
  · rw [accept_of_full hfull, hfull]
    rfl

/-- A byte that is no terminator changes only the line, and LI counts it where it is a digit or a comma. -/
theorem consumeByte_counts_mod (hb : b ≠ 0x0A#8 ∧ b ≠ 0x0D#8) (s : State) :
    ∃ l : LineRegs, l.li.val = (s.line.li.val + ([b].filter DigitOrComma).length) % 32 ∧ consumeByte b s = s.setLine l := by
  obtain ⟨hlf, hcr⟩ := hb
  cases hacc : DigitOrComma b
  · refine ⟨s.line, ?_, consumeByte_of_other hacc hlf hcr⟩
    rw [List.filter_singleton, hacc]
    exact (Nat.mod_eq_of_lt s.line.li.isLt).symm
  · refine ⟨accept b s.line, ?_, consumeByte_of_accepted hacc⟩
    rw [List.filter_singleton, hacc]
    exact accept_li_mod b s.line

/-- The bytes of a line still to come publish nothing where LI and their digits and commas are a multiple of 32 together. -/
theorem run_line_of_wrapping {bytes : List Byte} {term : Byte} {offers : List Offer} (hterm : term = 0x0A#8 ∨ term = 0x0D#8)
    (hbytes : ∀ b ∈ bytes, b ≠ 0x0A#8 ∧ b ≠ 0x0D#8)
    (hoffers : List.Forall₂ (fun (o : Offer) b => o.agent = .ing ∧ SpellsByte b o.words) offers (bytes ++ [term]))
    (hinbox : s.inbox = offers ++ rest) (hwrap : (s.line.li.val + (bytes.filter DigitOrComma).length) % 32 = 0) :
    ∃ line : LineRegs, line.li = 0 ∧ Host.Core.run core (bytes.length + 1) s =
      .next { s with line := line, actor := .ing, inbox := rest, result := .nothing } := by
  induction bytes generalizing s offers with
  | nil =>
    obtain ⟨o, _, ⟨ha, hw⟩, hnil, rfl⟩ := List.forall₂_cons_right_iff.mp hoffers
    obtain rfl := List.forall₂_nil_right_iff.mp hnil
    have hli : s.line.li = 0 := Fin.ext ((Nat.mod_eq_of_lt s.line.li.isLt).symm.trans hwrap)
    have hstep : step s = .next (consumeByte term (s.takeOffer o rest)).done := step_of_spellsByte hinbox ha hw
    rw [consumeByte_of_terminator_empty (s := s.takeOffer o rest) hterm hli] at hstep
    refine ⟨s.line, hli, ?_⟩
    rw [List.length_nil, run_succ_of_step (M := core) hstep, ← ha]
    rfl
  | cons b bs ih =>
    obtain ⟨o, os, ⟨ha, hw⟩, hos, rfl⟩ := List.forall₂_cons_right_iff.mp hoffers
    obtain ⟨hb, hbs⟩ := List.forall_mem_cons.mp hbytes
    have hstep : step s = .next (consumeByte b (s.takeOffer o (os ++ rest))).done := step_of_spellsByte hinbox ha hw
    obtain ⟨l, hl, hc⟩ := consumeByte_counts_mod hb (s.takeOffer o (os ++ rest))
    rw [hc] at hstep
    have hcount : (l.li.val + (bs.filter DigitOrComma).length) % 32 = 0 := by
      rw [hl, Nat.mod_add_mod, State.takeOffer_line, Nat.add_assoc, ← List.length_append, ← List.filter_append]
      exact hwrap
    rw [List.length_cons, run_succ_of_step (M := core) hstep]
    exact ih hbs hos rfl hcount

/-- Settles O14: from an empty line, 32 counted bytes bring LI back to 0 before the terminator. -/
theorem lineOfThirtyTwoPublishesNothing : Obligations.LineOfThirtyTwoPublishesNothing := by
  intro s bytes term offers rest hli hterm hbytes hlen hoffers hinbox
  refine run_line_of_wrapping hterm hbytes hoffers hinbox ?_
  rw [hli, hlen]
  rfl

end Sys2Proof.Machine
end

section
/-! PARSE: the fields around the first comma and their decimal values (30_encoding.md R73; 41_sample_decoder.md R106 to R108). -/

namespace Sys2Proof.Machine

open Sys2Proof.Statements

variable {t f1 f2 : List Byte}

/-! ### The fields (R106) -/

/-- Every byte of a text without a comma passes the test that ends field1. -/
theorem ne_comma_of_not_mem (h : 0x2C#8 ∉ t) : ∀ c ∈ t, (c != Config.chComma) = true :=
  fun _ hc => bne_iff_ne.mpr (ne_of_mem_of_not_mem hc h)

theorem field1_of_no_comma (h : 0x2C#8 ∉ t) : field1 t = t :=
  List.takeWhile_eq_self_iff.mpr (ne_comma_of_not_mem h)

theorem field2_of_no_comma (h : 0x2C#8 ∉ t) : field2 t = [] := by
  rw [field2, List.dropWhile_eq_nil_iff.mpr (ne_comma_of_not_mem h), List.drop_nil]

theorem field1_of_comma (h : 0x2C#8 ∉ f1) : field1 (f1 ++ 0x2C#8 :: f2) = f1 := by
  rw [field1, List.takeWhile_append_of_pos (ne_comma_of_not_mem h)]
  exact List.append_nil f1

theorem field2_of_comma (h : 0x2C#8 ∉ f1) : field2 (f1 ++ 0x2C#8 :: f2) = f2 := by
  rw [field2, List.dropWhile_append_of_pos (ne_comma_of_not_mem h)]
  rfl

/-! ### The value of a field (R108) -/

/-- DECVAL from `v` is the number whose figures are `v` and, after it, the field's leading digits. -/
theorem decvalFrom_eq_ofDigits (v : Nat) (f : List Byte) :
    decvalFrom v f = Nat.ofDigits 10 (((f.takeWhile isDigit).reverse.map fun d => d.toNat - 0x30) ++ [v]) := by
  induction f generalizing v with
  | nil => simp [decvalFrom]
  | cons c cs ih =>
    cases hc : isDigit c
    · simp [decvalFrom, hc]
    · rw [decvalFrom, if_pos hc, ih, List.takeWhile_cons_of_pos hc, List.reverse_cons, List.map_append, List.append_assoc,
        Nat.ofDigits_append, Nat.ofDigits_append]
      simp [Nat.ofDigits_cons, add_comm]

/-- DECVAL is the positional value of the leading digits (R73, R108). -/
theorem decval_eq_fieldValue (f : List Byte) : decval f = fieldValue f := by
  rw [decval, decvalFrom_eq_ofDigits, Nat.ofDigits_append_zero]
  rfl

/-- MKSAMPLE is the sentinel at (0, 0) and clamps to the frame elsewhere (R107). -/
theorem mkSample_eq_sampleOf (x y : Nat) : mkSample x y = sampleOf x y := rfl

theorem parse_eq_sampleOf (t : List Byte) : parse t = sampleOf (fieldValue (field1 t)) (fieldValue (field2 t)) := by
  rw [parse, mkSample_eq_sampleOf, decval_eq_fieldValue, decval_eq_fieldValue]

/-- Settles O12: the two fields of each form of text, with DECVAL read as a positional value. -/
theorem parseSplitsConvertsAndClamps : Obligations.ParseSplitsConvertsAndClamps := by
  constructor
  · intro t h
    rw [parse_eq_sampleOf, field1_of_no_comma h, field2_of_no_comma h]
    rfl
  · intro f1 f2 h
    rw [parse_eq_sampleOf, field1_of_comma h, field2_of_comma h]

end Sys2Proof.Machine
end

section
/-! MB_PUBLISH and MB_TAKE by the agent that performs them (42_mailbox.md R120, R121; 20_memory.md R60). -/

namespace Sys2Proof.Machine

variable {s : State}

theorem exec_mbTake_of_ready (h : s.actor = .ctl) (hr : s.mb.ready = true) :
    exec .mbTake s =
      .next ((afterTake s).setResult (.sample (some { x := s.mb.x, y := s.mb.y, valid := s.mb.valid }))) := by
  rw [exec_mbTake h, taken_of_ready hr]

/-- Settles O15: MB_PUBLISH is the transition Publish under the access rule. -/
theorem publishWritesTheCell : Obligations.PublishWritesTheCell := by
  intro x y v s
  constructor
  · intro hing
    exact exec_mbPublish hing
  · intro hctl
    have hne : s.actor ≠ performer (.mbPublish x y v) := by rw [hctl]; nofun
    exact exec_of_wrong_agent hne

/-- Settles O16: MB_TAKE under the access rule, by READY. -/
theorem takeAnswersAndClears : Obligations.TakeAnswersAndClears := by
  intro s
  refine ⟨fun hctl hready => ?pending, fun hctl hready => ?empty, fun hing => ?refused⟩
  case pending => exact exec_mbTake_of_ready hctl hready
  case empty => exact exec_mbTake_of_not_ready hctl hready
  case refused =>
    have hne : s.actor ≠ performer .mbTake := by rw [hing]; nofun
    exact exec_of_wrong_agent hne

end Sys2Proof.Machine
end

section
/-! Rounded sums and the clamp by value: rounding is a monotone map of the exact result that keeps what a finite pattern has, and the
clamp is a min and a max (00_scope.md R8; 43_axis_pid.md R131, R132). -/

namespace Sys2Proof.Machine

variable {a b c v lim : F32}

/-- The value of an exact result of `x` units once it is rounded (R8), infinity read as 2^128. -/
def roundedValue (x : Int) : Int := signed (decide (x < 0)) (unitsOf (roundMag x.natAbs 1))

theorem fvalue_ieeeAdd (ha : isFinite a = true) (hb : isFinite b = true) :
    fvalue (ieeeAdd a b) = roundedValue (fvalue a + fvalue b) := by
  rw [ieeeAdd_finite ha hb]
  split
  · rename_i hz
    rw [hz, roundedValue, Int.natAbs_zero, roundMag_zero Nat.one_pos, fvalue_fpack_eq_signed (by decide), unitsOf_zero,
      signed_zero, signed_zero]
  · exact fvalue_fpack_eq_signed (roundMag_lt _ _)

/-- Rounding keeps the value of a finite pattern. -/
theorem roundedValue_fvalue (hc : isFinite c = true) : roundedValue (fvalue c) = fvalue c := by
  have habs : (fvalue c).natAbs = unitsOf (fmag c) := by
    rw [← funits_eq, ← Nat.cast_inj (R := Int), Int.natCast_natAbs, abs_fvalue]
  have hround : roundMag (unitsOf (fmag c)) 1 = fmag c := by
    simpa using roundMag_exact Nat.one_pos ((isFinite_iff c).mp hc).le
  rw [roundedValue, habs, hround, ← habs, signed_decide_natAbs]

theorem roundedValue_mono : Monotone roundedValue := by
  have hmag : ∀ {m n : Nat}, m ≤ n → unitsOf (roundMag m 1) ≤ unitsOf (roundMag n 1) := fun h =>
    unitsOf_strictMono.monotone (roundMag_mono Nat.one_pos Nat.one_pos (Nat.mul_le_mul_right 1 h))
  intro x y hxy
  unfold roundedValue
  rcases lt_or_ge x 0 with hx | hx <;> rcases lt_or_ge y 0 with hy | hy
  · have := hmag (show y.natAbs ≤ x.natAbs by omega)
    simp [signed, hx, hy, this]
  · simp only [signed, hx, not_lt.mpr hy, decide_true, decide_false, if_true, Bool.false_eq_true, if_false]
    omega
  · omega
  · have := hmag (show x.natAbs ≤ y.natAbs by omega)
    simp [signed, not_lt.mpr hx, not_lt.mpr hy, this]

/-- The clamp of R131 by value. -/
theorem fvalue_clampSym (hv : isNaN v = false) (hfin : isFinite lim = true) (h0 : 0 ≤ fvalue lim) :
    fvalue (clampSym v lim) = max (-fvalue lim) (min (fvalue lim) (fvalue v)) := by
  have hlim : isNaN lim = false := isNaN_of_isFinite hfin
  have hneg : isNaN (fneg lim) = false := (isNaN_fneg lim).trans hlim
  unfold clampSym
  simp only [fgt_iff_fvalue hv hlim, flt_iff_fvalue hv hneg, fvalue_fneg]
  split
  case isTrue habove => omega
  case isFalse hle =>
    split
    case isTrue hbelow => rw [fvalue_fneg]; omega
    case isFalse hge => omega

/-- The integral of R131 step 2 by value: the rounded sum, clamped to the limits. -/
theorem fvalue_pidInteg {p : PidBank} {e : F32} (hp : BankInv p) (he : isFinite e = true) :
    fvalue (pidInteg .standard p e) =
      max (-fvalue p.imax) (min (fvalue p.imax) (roundedValue (fvalue p.integ + fvalue e))) := by
  obtain ⟨-, -, -, himax, -, himax0, -, -, hinteg, -⟩ := hp
  rw [pidInteg, fadd_standard, fvalue_clampSym (isNaN_ieeeAdd hinteg he) himax himax0, fvalue_ieeeAdd hinteg he]

end Sys2Proof.Machine
end

section
/-! AxisPID: each operation as its agent performs it, the limits PID_CALC keeps to, and construction (43_axis_pid.md R130 to R135;
70_reset_and_hazards.md R241). -/

namespace Sys2Proof.Machine

open Sys2Proof.Statements

variable {s t : State} {a : Axis} {p b : PidBank} {n : NumConfig} {e u : F32}

/-! ### The statements' words for the model's updates -/

theorem refuse_eq_refusedState (s : State) (r : RefuseReason) : s.refuse r = refusedState s r := rfl

theorem clear_eq_cleared (p : PidBank) : p.clear = cleared p := rfl

theorem setPid_setResult_eq_withBank (s : State) (a : Axis) (p : PidBank) (v : Result) :
    (s.setPid a p).setResult v = withBank s a p v := by
  cases a <;> rfl

theorem withBank_pid (s : State) (a : Axis) (p : PidBank) (v : Result) : (withBank s a p v).pid a = p := by
  cases a <;> rfl

/-! ### PID_CALC on a bank (R131) -/

theorem pidCalc_of_not_finite (he : isFinite e = false) : pidCalc n p e = .error .pidNan := by
  simp [pidCalc, he]

theorem pidCalc_outside_of_isNaN (he : isFinite e = true) (hd : inDeadzone e p.dz = false)
    (hu : isNaN (pidSum n p e (pidInteg n p e) (pidDeriv n p e)) = true) : pidCalc n p e = .error .pidNan := by
  simp [pidCalc, he, hd, hu]

theorem pidCalc_outside_of_not_isNaN (he : isFinite e = true) (hd : inDeadzone e p.dz = false)
    (hu : isNaN (pidSum n p e (pidInteg n p e) (pidDeriv n p e)) = false) :
    pidCalc n p e = .ok ({ p with err := e, integ := pidInteg n p e, deriv := pidDeriv n p e, last := e },
      clampSym (pidSum n p e (pidInteg n p e) (pidDeriv n p e)) p.omax) := by
  simp [pidCalc, he, hd, hu]

/-! ### PID_CALC as an operation -/

theorem exec_pidCalc_of_ok (hs : s.actor = .ctl) (h : pidCalc s.num (s.pid a) e = .ok (b, u)) :
    exec (.pidCalc a e) s = .next (withBank s a b (.output u)) := by
  rw [← setPid_setResult_eq_withBank]
  refine (runAs_performed hs).trans ?_
  rw [calcAxis, h]
  rfl

theorem exec_pidCalc_of_error {r : RefuseReason} (hs : s.actor = .ctl) (h : pidCalc s.num (s.pid a) e = .error r) :
    exec (.pidCalc a e) s = .next (refusedState s r) := by
  refine (runAs_performed hs).trans ?_
  rw [calcAxis, h]
  rfl

/-- A PID_CALC that answers an output leaves the bank of the calculation. -/
theorem pidCalc_of_output (hs : s.actor = .ctl) (h : exec (.pidCalc a e) s = .next t) (hu : t.result = .output u) :
    pidCalc s.num (s.pid a) e = .ok (t.pid a, u) := by
  cases hc : pidCalc s.num (s.pid a) e with
  | error r =>
    rw [exec_pidCalc_of_error hs hc] at h
    cases h
    cases hu
  | ok r =>
    obtain ⟨b, v⟩ := r
    rw [exec_pidCalc_of_ok hs hc] at h
    cases h
    cases hu
    rw [withBank_pid]

/-- Settles O20: a non-finite error is refused before the deadzone test. -/
theorem pidCalcRefusesNonFiniteErrors : Obligations.PidCalcRefusesNonFiniteErrors :=
  fun _ _ _ hs he => exec_pidCalc_of_error hs (pidCalc_of_not_finite he)

/-- Settles O19: the three ways PID_CALC on a bank ends for a finite error, and the written order of the default sum. -/
theorem pidCalcFollowsItsFiveSteps : Obligations.PidCalcFollowsItsFiveSteps := by
  constructor
  · intro a e s hs he
    refine ⟨fun hd => ?inside, fun hd integ deriv u hinteg hderiv hu => ?outside⟩
    case inside => exact exec_pidCalc_of_ok hs (pidCalc_inside he hd)
    case outside =>
      subst hinteg hderiv hu
      exact ⟨fun hnan => exec_pidCalc_of_error hs (pidCalc_outside_of_isNaN he hd hnan),
        fun hnum => exec_pidCalc_of_ok hs (pidCalc_outside_of_not_isNaN he hd hnum)⟩
  · exact fdot3_standard

/-! ### The limits (R132) -/

/-- Where the bank is in its domain the output is within OMAX: it is +0.0 or a clamped sum. -/
theorem pidCalc_output_within (hp : BankInv p) (h : pidCalc n p e = .ok (b, u)) :
    isFinite u = true ∧ |fvalue u| ≤ fvalue p.omax := by
  obtain ⟨-, -, -, -, homax, -, homax0, -, -, -⟩ := hp
  obtain ⟨-, ⟨-, -, rfl⟩ | ⟨-, hnum, -, rfl⟩⟩ := pidCalc_ok_cases h
  · rw [fvalue_fzero, abs_zero]
    exact ⟨isFinite_fzero, homax0⟩
  · exact ⟨isFinite_clampSym hnum homax homax0, abs_fvalue_clampSym_le hnum homax homax0⟩

/-- Settles O24: PID_CALC keeps the bank's domain and clamps its output. -/
theorem pidCalcStaysWithinItsLimits : Obligations.PidCalcStaysWithinItsLimits := by
  intro a e u s t hs hn hp h hu
  have hc := pidCalc_of_output hs h hu
  exact ⟨hp.of_pidCalc (hn ▸ hc), pidCalc_output_within hp hc⟩

/-- Outside the deadzone a PID_CALC that answers an output leaves the clamped rounded sum in INTEG. -/
theorem fvalue_integ_of_output (hs : s.actor = .ctl) (hn : s.num = .standard) (hp : BankInv (s.pid a))
    (hd : inDeadzone e (s.pid a).dz = false) (h : exec (.pidCalc a e) s = .next t) (hu : t.result = .output u) :
    fvalue (t.pid a).integ = max (-fvalue (s.pid a).imax)
      (min (fvalue (s.pid a).imax) (roundedValue (fvalue (s.pid a).integ + fvalue e))) := by
  obtain ⟨he, ⟨hd', -⟩ | ⟨-, -, hb, -⟩⟩ := pidCalc_ok_cases (pidCalc_of_output hs h hu)
  · exact nomatch hd.symm.trans hd'
  · rw [hb, hn]
    exact fvalue_pidInteg hp he

/-- Settles O25: the exact sum is beyond the limit, which rounding keeps, so the rounded sum is too and the clamp answers the limit. -/
theorem integralSaturatesInOneCall : Obligations.IntegralSaturatesInOneCall := by
  intro a e u s t hs hn hp _ hd h hu
  rw [fvalue_integ_of_output hs hn hp hd h hu]
  obtain ⟨-, -, -, himax, -, himax0, -, -, -, hinteg⟩ := hp
  obtain ⟨hlow, hhigh⟩ := abs_le.mp hinteg
  constructor
  · intro he
    have hround := roundedValue_mono (show fvalue (s.pid a).imax ≤ fvalue (s.pid a).integ + fvalue e by omega)
    rw [roundedValue_fvalue himax] at hround
    omega
  · intro he
    have hround := roundedValue_mono
      (show fvalue (s.pid a).integ + fvalue e ≤ fvalue (fneg (s.pid a).imax) by rw [fvalue_fneg]; omega)
    rw [roundedValue_fvalue ((isFinite_fneg _).trans himax), fvalue_fneg] at hround
    omega

/-- Settles O26: the exact sum is on the error's side of INTEG, which rounding keeps and which lies within the limits already. -/
theorem integralFollowsTheErrorsSign : Obligations.IntegralFollowsTheErrorsSign := by
  intro a e u s t hs hn hp _ hd h hu
  rw [fvalue_integ_of_output hs hn hp hd h hu]
  obtain ⟨-, -, -, -, -, -, -, -, hfin, hinteg⟩ := hp
  obtain ⟨hlow, hhigh⟩ := abs_le.mp hinteg
  constructor
  · intro he
    have hround := roundedValue_mono (show fvalue (s.pid a).integ ≤ fvalue (s.pid a).integ + fvalue e by omega)
    rw [roundedValue_fvalue hfin] at hround
    omega
  · intro he
    have hround := roundedValue_mono (show fvalue (s.pid a).integ + fvalue e ≤ fvalue (s.pid a).integ by omega)
    rw [roundedValue_fvalue hfin] at hround
    omega

/-! ### PID_RESET, PID_SET_PARAMS, PID_GET_PARAMS (R133 to R135) -/

/-- Settles O21: PID_RESET writes the cleared bank. -/
theorem pidResetClearsTransients : Obligations.PidResetClearsTransients := by
  intro a s hs
  rw [← setPid_setResult_eq_withBank, ← clear_eq_cleared]
  exact runAs_performed hs

theorem setGains_of_finite {kp ki kd : F32} (h : isFinite kp = true ∧ isFinite ki = true ∧ isFinite kd = true) :
    setGains a kp ki kd s = .ok (withBank s a { s.pid a with kp := kp, ki := ki, kd := kd } .nothing) := by
  obtain ⟨hkp, hki, hkd⟩ := h
  rw [setGains, hkp, hki, hkd, ← setPid_setResult_eq_withBank]
  rfl

theorem setGains_of_not_finite {kp ki kd : F32} (h : isFinite kp = false ∨ isFinite ki = false ∨ isFinite kd = false) :
    setGains a kp ki kd s = .error .badGain := by
  rw [setGains, if_neg]
  rcases h with h | h | h <;> simp [h]

/-- Settles O22: PID_SET_PARAMS is `setGains` under the access rule. -/
theorem pidSetParamsReplacesGains : Obligations.PidSetParamsReplacesGains := by
  intro a kp ki kd s hs
  have hexec : exec (.pidSetParams a kp ki kd) s = .next (s.settle (setGains a kp ki kd s)) := runAs_performed hs
  constructor
  · intro h
    rw [hexec, setGains_of_finite h, State.settle_ok]
  · intro h
    rw [hexec, setGains_of_not_finite h, State.settle_error, refuse_eq_refusedState]

/-- Settles O23: the answer is the one field PID_GET_PARAMS writes. -/
theorem pidGetParamsAnswersGains : Obligations.PidGetParamsAnswersGains :=
  fun _ _ hs => runAs_performed hs

/-! ### Construction (R130, R241) -/

theorem construct_of_admitted {p : BootParams} (h : p.admitted = true) : construct p = .ok (State.powerOn p) := by
  rw [construct, if_pos h]

theorem construct_of_not_admitted {p : BootParams} (h : ¬ p.admitted = true) : construct p = .error .badConfig := by
  rw [construct, if_neg h]

/-- Parameters are admitted where each axis's configuration is (R241). -/
theorem bootParams_admitted_iff (p : BootParams) : p.admitted = true ↔ ∀ c ∈ [p.pidH, p.pidV], c.admitted = true := by
  simp [BootParams.admitted]

/-- What lies outside the domain of R130, by value. -/
theorem pidConfig_not_admitted_iff (c : PidConfig) :
    ¬ c.admitted = true ↔ isFinite c.kp = false ∨ isFinite c.ki = false ∨ isFinite c.kd = false ∨ isFinite c.imax = false ∨
      isFinite c.omax = false ∨ fvalue c.imax < 0 ∨ fvalue c.omax < 0 := by
  simp only [pidConfig_admitted_iff, not_and_or, Bool.not_eq_true, not_le]

/-- Settles O60: construction answers by R130's domain of the two configurations. -/
theorem constructionAdmitsOnlyTheDomain : Obligations.ConstructionAdmitsOnlyTheDomain := by
  intro p
  constructor
  · intro h
    exact construct_of_admitted ((bootParams_admitted_iff p).mpr fun c hc => (pidConfig_admitted_iff c).mpr (h c hc))
  · rintro ⟨c, hc, h⟩
    exact construct_of_not_admitted fun hp =>
      (pidConfig_not_admitted_iff c).mpr h ((bootParams_admitted_iff p).mp hp c hc)

end Sys2Proof.Machine
end

section
/-! One tick of the tracking state machine, by what it finds: disabled, without a valid sample, inside both deadzones, or outside one
(44_tracking.md R150 to R161). -/

namespace Sys2Proof.Machine

open Sys2Proof.Statements

variable {s t : State} {p : Sample} {bH bV : PidBank} {oH oV : F32} {fH fV : Frame} {r : RefuseReason}

/-! ### An equation per branch -/

theorem tick_of_disabled (he : s.sm.en = false) : tick s = .ok s := by
  simp [tick, he]

theorem tick_without_valid (he : s.sm.en = true) (h : s.mb.ready = false ∨ s.mb.valid = false) :
    tick s = .ok (lossTick (afterTake s)) := by
  cases hr : s.mb.ready
  · simp [tick, he, taken_of_not_ready hr, afterTake_of_not_ready hr]
  · have hv : s.mb.valid = false := h.resolve_left (by simp [hr])
    simp [tick, he, taken_of_ready hr, hv]

theorem tick_with_valid (he : s.sm.en = true) (hr : s.mb.ready = true) (hv : s.mb.valid = true) :
    tick s = trackTick ⟨s.mb.x, s.mb.y, true⟩ (afterTake s) := by
  simp [tick, he, taken_of_ready hr, hv]

theorem trackTick_inside (hH : pidCalc s.num s.pidH (f32 (centerError p.x)) = .ok (bH, oH))
    (hV : pidCalc s.num s.pidV (f32 (centerError p.y)) = .ok (bV, oV))
    (hin : bothInDeadzone (centerError p.x) (centerError p.y) s.pidH.dz s.pidV.dz = true) :
    trackTick p s = .ok (dwellTick p oH oV (regulated p bH bV oH oV s)) := by
  simp [trackTick, hH, hV, hin]

theorem trackTick_outside (hH : pidCalc s.num s.pidH (f32 (centerError p.x)) = .ok (bH, oH))
    (hV : pidCalc s.num s.pidV (f32 (centerError p.y)) = .ok (bV, oV))
    (hout : bothInDeadzone (centerError p.x) (centerError p.y) s.pidH.dz s.pidV.dz = false) :
    trackTick p s = moveTick oH oV (regulated p bH bV oH oV s) := by
  simp [trackTick, hH, hV, hout]

theorem trackTick_of_errorH (hH : pidCalc s.num s.pidH (f32 (centerError p.x)) = .error r) : trackTick p s = .error r := by
  simp [trackTick, hH]

theorem trackTick_of_errorV (hH : pidCalc s.num s.pidH (f32 (centerError p.x)) = .ok (bH, oH))
    (hV : pidCalc s.num s.pidV (f32 (centerError p.y)) = .error r) : trackTick p s = .error r := by
  simp [trackTick, hH, hV]

/-- The frame of one axis's Move in a tick (R157). -/
def axisMove (s : State) (m : Motor) (out : F32) : Except RefuseReason Frame :=
  encMove s.num s.dirPos m (fmul s.num out Config.scale) Config.speedDefault Config.accelDefault

theorem moveTick_of_ok (hH : axisMove s .horizontal oH = .ok fH) (hV : axisMove s .vertical oV = .ok fV) :
    moveTick oH oV s = .ok (sendBoth fH fV (s.setSm { s.sm with dwell := 0#8 })) := by
  rw [axisMove] at hH hV
  simp [moveTick, hH, hV]

theorem moveTick_of_errorH (hH : axisMove s .horizontal oH = .error r) : moveTick oH oV s = .error r := by
  rw [axisMove] at hH
  simp [moveTick, hH]

theorem moveTick_of_errorV (hH : axisMove s .horizontal oH = .ok fH) (hV : axisMove s .vertical oV = .error r) :
    moveTick oH oV s = .error r := by
  rw [axisMove] at hH hV
  simp [moveTick, hH, hV]

theorem dwellTick_counts (h : (s.sm.dwell + 1).toNat < 10) : dwellTick p oH oV s = s.setSm { s.sm with dwell := s.sm.dwell + 1 } :=
  (dwellTick_cases p oH oV s).elim And.right fun ⟨h', _⟩ => absurd h (Nat.not_lt.mpr h')

theorem dwellTick_locks (h : 10 ≤ (s.sm.dwell + 1).toNat) :
    dwellTick p oH oV s =
      (emitFeedback (tickRecord p oH oV .locked) (stopBoth s)).setSm { s.sm with mode := .locked, dwell := 0#8 } :=
  (dwellTick_cases p oH oV s).elim (fun ⟨h', _⟩ => absurd h (Nat.not_le.mpr h')) And.right

/-! ### A tick without a valid sample -/

/-- Settles O33: a disabled tick is the identity, counted. -/
theorem disabledTickChangesNothing : Obligations.DisabledTickChangesNothing :=
  fun s hs hen => execSmTick_of_ok hs (tick_of_disabled (s := s.countTick) hen)

theorem lostDue_iff {l : BitVec 32} : lostDue l = true ↔ l.toNat % 50 = 1 := by
  simp [lostDue, Config.lostPeriod]

/-- The whole update of a loss tick (R158, R159). -/
theorem lossTick_eq (s : State) : lossTick s = { s with
    sm := { s.sm with loss := s.sm.loss + 1, mode := .idle, dwell := 0#8 }
    lost := if (s.sm.loss + 1).toNat % 50 = 1 then s.lost ++ [s.sm.loss + 1] else s.lost } := by
  simp only [lossTick, emitLostIfDue, lostDue_iff, State.setSm_sm]
  split_ifs <;> rfl

/-- Settles O34: without a valid sample the tick is the loss tick, whose event is due at counts that are 1 modulo 50. -/
theorem lossTickCountsAndGoesIdle : Obligations.LossTickCountsAndGoesIdle := by
  intro s hs hen hmb
  refine (execSmTick_of_ok hs (tick_without_valid (s := s.countTick) hen hmb)).trans ?_
  rw [lossTick_eq, ← hen]
  rfl

/-! ### A tick with a valid sample -/

theorem en_of_validTick (h : ValidTick s) : s.sm.en = true := by
  obtain ⟨-, hen, -⟩ := h
  exact hen

/-- A tick of CTL that finds a valid sample is R153 to R157 on it. -/
theorem tick_of_validTick (h : ValidTick s) :
    tick s.countTick = trackTick ⟨s.mb.x, s.mb.y, true⟩ (afterTake s.countTick) := by
  obtain ⟨-, hen, hready, hvalid⟩ := h
  exact tick_with_valid (s := s.countTick) hen hready hvalid

theorem exec_smTick_of_trackTick_ok (h : ValidTick s)
    (ht : trackTick ⟨s.mb.x, s.mb.y, true⟩ (afterTake s.countTick) = .ok t) : exec .smTick s = .next t.done :=
  execSmTick_of_ok h.1 ((tick_of_validTick h).trans ht)

theorem exec_smTick_of_trackTick_error (h : ValidTick s)
    (ht : trackTick ⟨s.mb.x, s.mb.y, true⟩ (afterTake s.countTick) = .error r) :
    exec .smTick s = .next (refusedState { s with tickIndex := s.tickIndex + 1 } r) :=
  execSmTick_of_error h.1 ((tick_of_validTick h).trans ht)

theorem bothInDeadzone_iff_inside :
    bothInDeadzone (centerError s.mb.x) (centerError s.mb.y) s.pidH.dz s.pidV.dz = true ↔ Inside s := by
  rw [bothInDeadzone, Bool.and_eq_true, decide_eq_true_iff, decide_eq_true_iff]
  exact Iff.rfl

theorem bothInDeadzone_of_not_inside (h : ¬ Inside s) :
    bothInDeadzone (centerError s.mb.x) (centerError s.mb.y) s.pidH.dz s.pidV.dz = false :=
  Bool.eq_false_iff.mpr (mt bothInDeadzone_iff_inside.mp h)

/-- An integer error inside its deadzone is small, so PID_CALC's own test on binary32 agrees and clears the bank (R131, R155). -/
theorem pidCalc_of_natAbs_lt {n : NumConfig} {b : PidBank} {e : Int} (h : e.natAbs < b.dz.toNat) :
    pidCalc n b (f32 e) = .ok (cleared b, 0#32) := by
  have hsmall : e.natAbs ≤ 2 ^ 24 := by have := b.dz.isLt; omega
  exact pidCalc_inside (isFinite_f32 hsmall) ((flt_fabs_f32 hsmall b.dz).trans (decide_eq_true h))

/-- The state of a valid tick after regulation, before it counts its dwell or moves (R153, R154). -/
def regulatedTick (s : State) (bH bV : PidBank) (oH oV : F32) : State :=
  regulated ⟨s.mb.x, s.mb.y, true⟩ bH bV oH oV (afterTake s.countTick)

theorem exec_smTick_inside (h : ValidTick s) (hin : Inside s) :
    exec .smTick s = .next (dwellTick ⟨s.mb.x, s.mb.y, true⟩ 0#32 0#32
      (regulatedTick s (cleared s.pidH) (cleared s.pidV) 0#32 0#32)).done := by
  obtain ⟨hx, hy⟩ := hin
  exact exec_smTick_of_trackTick_ok h (trackTick_inside (s := afterTake s.countTick) (pidCalc_of_natAbs_lt hx)
    (pidCalc_of_natAbs_lt hy) (bothInDeadzone_iff_inside.mpr ⟨hx, hy⟩))

theorem toNat_add_one_of_lt {d : Byte} (h : d.toNat < 255) : (d + 1).toNat = d.toNat + 1 := by
  bv_omega

/-- Settles O36: inside both deadzones the outputs are 0, and a dwell count that stays below 10 is counted. -/
theorem insideTickCountsDwell : Obligations.InsideTickCountsDwell := by
  intro s hvalid hin hdwell
  have hcount : (s.sm.dwell + 1).toNat < 10 := by rw [toNat_add_one_of_lt] <;> omega
  rw [exec_smTick_inside hvalid hin, dwellTick_counts (s := regulatedTick s ..) hcount, ← en_of_validTick hvalid]
  rfl

/-- Settles O37: inside both deadzones the outputs are 0, and a dwell count that reaches 10 locks. -/
theorem tenthInsideTickLocks : Obligations.TenthInsideTickLocks := by
  intro s hvalid hin hdwell hnowrap
  have hcount : 10 ≤ (s.sm.dwell + 1).toNat := by rw [toNat_add_one_of_lt hnowrap]; omega
  rw [exec_smTick_inside hvalid hin, dwellTick_locks (s := regulatedTick s ..) hcount, ← en_of_validTick hvalid,
    List.append_cons s.fb]
  rfl

theorem trackTick_of_not_inside (hout : ¬ Inside s) (hH : pidCalc s.num s.pidH (f32 (errorOf s.mb.x)) = .ok (bH, oH))
    (hV : pidCalc s.num s.pidV (f32 (errorOf s.mb.y)) = .ok (bV, oV)) :
    trackTick ⟨s.mb.x, s.mb.y, true⟩ (afterTake s.countTick) = moveTick oH oV (regulatedTick s bH bV oH oV) :=
  trackTick_outside (s := afterTake s.countTick) (p := ⟨s.mb.x, s.mb.y, true⟩) hH hV (bothInDeadzone_of_not_inside hout)

/-- Regulation changes neither NUM nor DIR_POS, so a Move is encoded as from the state before the tick. -/
theorem axisMove_regulatedTick (m : Motor) (out : F32) : axisMove (regulatedTick s bH bV oH oV) m out =
    encMove s.num s.dirPos m (fmul s.num out 0x3C23D70A#32) 0x04B0#16 0x05#8 := rfl

/-- Settles O35: outside a deadzone the tick is the move tick of the regulated state. -/
theorem outsideTickMovesBothAxes : Obligations.OutsideTickMovesBothAxes := by
  intro s bH bV outH outV fH fV hvalid hout hpidH hpidV hmoveH hmoveV
  rw [← axisMove_regulatedTick (bH := bH) (bV := bV) (oH := outH) (oV := outV)] at hmoveH hmoveV
  have htrack := (trackTick_of_not_inside hout hpidH hpidV).trans (moveTick_of_ok hmoveH hmoveV)
  rw [exec_smTick_of_trackTick_ok hvalid htrack, ← en_of_validTick hvalid]
  rfl

/-- Settles O38: each refusal of a call is the refusal of the valid tick, the horizontal axis's before the vertical's. -/
theorem refusedTickChangesNothing : Obligations.RefusedTickChangesNothing := by
  intro s r hvalid h
  refine exec_smTick_of_trackTick_error hvalid ?_
  rcases h with hpidH | ⟨⟨bH, oH⟩, hpidH, hpidV⟩ | ⟨bH, oH, bV, oV, hout, hpidH, hpidV, hmove⟩
  · exact trackTick_of_errorH hpidH
  · exact trackTick_of_errorV hpidH hpidV
  · rw [trackTick_of_not_inside hout hpidH hpidV]
    simp only [← axisMove_regulatedTick (bH := bH) (bV := bV) (oH := oH) (oV := oV)] at hmove
    rcases hmove with hmoveH | ⟨fH, hmoveH, hmoveV⟩
    · exact moveTick_of_errorH hmoveH
    · exact moveTick_of_errorV hmoveH hmoveV

/-! ### SM_ENABLE and SM_DISABLE -/

theorem stopBoth_done_eq_withBothStopped (s : State) : (stopBoth s).done = withBothStopped s := rfl

/-- Settles O40: the operation as CTL performs it; clearing a bank is writing its transients +0.0. -/
theorem enableResetsTracking : Obligations.EnableResetsTracking := by
  intro s hs
  simp only [← clear_eq_cleared]
  exact runAs_performed hs

/-- Settles O41: the operation as CTL performs it; its Stops are the bytes of R75. -/
theorem disableStopsBoth : Obligations.DisableStopsBoth := by
  intro s hs
  refine (runAs_performed hs).trans ?_
  rw [stopBoth_done_eq_withBothStopped]
  rfl

end Sys2Proof.Machine
end

section
/-! The frames a step issues (30_encoding.md R79; 44_tracking.md R157; 45_motion_encoder.md R190): to each motor as many as the order of
issue names it, each a frame of R79, and in the integrated block its pulse magnitude in range. -/

namespace Sys2Proof.Machine

variable {i : Instr} {s t : State} {m : Motor} {f : Frame}

/-! ### The order of issue -/

theorem issueOrderFrom_append (n : Nat) (gs hs : List SendGroup) :
    issueOrderFrom n (gs ++ hs) = issueOrderFrom n gs ++ issueOrderFrom (n + gs.length) hs := by
  induction gs generalizing n with
  | nil => rfl
  | cons g gs ih =>
    have hlen : n + (g :: gs).length = n + 1 + gs.length := by rw [List.length_cons]; omega
    rw [hlen, List.cons_append]
    cases g <;> simp [issueOrderFrom, ih]

/-- Whichever order a SendBoth takes, it names each motor once (R157). -/
theorem count_issueOrderFrom_both (n : Nat) (m : Motor) : (issueOrderFrom n [.both]).count m = 1 := by
  rw [issueOrderFrom]
  cases m <;> split <;> rfl

theorem count_issueOrderFrom_one (n : Nat) (m k : Motor) : (issueOrderFrom n [.one k]).count m = if k = m then 1 else 0 := by
  cases k <;> cases m <;> rfl

/-! ### The frames issued -/

/-- Every frame issued is one the block may emit to its motor (R79, R188). -/
theorem IssuedFrame.emitted (h : IssuedFrame i m f) : Emitted m f := by
  cases h with
  | stop => exact emitted_stopFrame m
  | enable en => exact emitted_enableFrame m en
  | move d sp ac p _ => exact emitted_moveFrame m d sp ac p

/-- Of the frames issued only a Move carries a pulse magnitude, and outside the internal operations ENC_MOVE bounds it (R190). -/
theorem IssuedFrame.pulsesInRange (h : IssuedFrame i m f) (hi : isInternal i = false) : PulsesInRange f := by
  cases h with
  | stop => exact nofun
  | enable en => exact nofun
  | move d sp ac p hp =>
    rintro - b hb
    obtain rfl : p.extractLsb' 24 8 = b := Option.some.inj hb
    have hmax : p.toNat ≤ 2 ^ 31 - 1 := hp hi
    rw [BitVec.extractLsb'_toNat, Nat.shiftRight_eq_div_pow]
    omega

/-- What an operation issues to one motor: as many frames as the order of issue then names it more often. -/
theorem Effect.issued (h : Effect i s t) (m : Motor) :
    ∃ new, t.out m = s.out m ++ new ∧ (∀ f ∈ new, IssuedFrame i m f) ∧
      (issueOrder t).count m = (issueOrder s).count m + new.length := by
  rcases h.issues with ⟨h1, h2, hlog⟩ | ⟨f, hf, h1, h2, hlog⟩ | ⟨f, hf, h1, h2, hlog⟩ | ⟨fH, fV, hH, hV, h1, h2, hlog⟩ <;>
    simp only [issueOrder, hlog, issueOrderFrom_append, List.count_append, count_issueOrderFrom_both, count_issueOrderFrom_one]
  · cases m
    · exact ⟨[], by simp [h1], nofun, rfl⟩
    · exact ⟨[], by simp [h2], nofun, rfl⟩
  · cases m
    · exact ⟨[f], h1, by simpa using hf, rfl⟩
    · exact ⟨[], by simp [h2], nofun, rfl⟩
  · cases m
    · exact ⟨[], by simp [h1], nofun, rfl⟩
    · exact ⟨[f], h2, by simpa using hf, rfl⟩
  · cases m
    · exact ⟨[fV], h1, by simpa using hV, rfl⟩
    · exact ⟨[fH], h2, by simpa using hH, rfl⟩

/-- What a step issues to one motor, by an operation that the integrated block does not count as internal. -/
theorem step_issued (h : step s = .next t) (m : Motor) :
    ∃ new, t.out m = s.out m ++ new ∧ (∀ f ∈ new, ∃ i, (Integrated s → isInternal i = false) ∧ IssuedFrame i m f) ∧
      (issueOrder t).count m = (issueOrder s).count m + new.length := by
  rcases step_effect h with ⟨-, rfl⟩ | ⟨o, rest, hinbox, ⟨e, -, rfl | rfl⟩ | ⟨i, hd, he⟩⟩
  · exact ⟨[], (List.append_nil _).symm, nofun, rfl⟩
  · exact ⟨[], (List.append_nil _).symm, nofun, rfl⟩
  · exact ⟨[], (List.append_nil _).symm, nofun, rfl⟩
  · obtain ⟨new, hout, hnew, hcount⟩ := he.issued m
    exact ⟨new, hout, fun f hf => ⟨i, fun hint => hint o rest i hinbox hd, hnew f hf⟩, hcount⟩

/-- Settles O57: a step appends to each motor's stream issued frames, as many as it adds the motor to the order of issue. -/
theorem stepKeepsSendInvariant : Obligations.StepKeepsSendInvariant := by
  intro s t hs h
  constructor
  · intro m
    obtain ⟨new, hout, hnew, hcount⟩ := step_issued h m
    obtain ⟨hcount_s, hemitted⟩ := hs m
    rw [hout, hcount, hcount_s, List.length_append]
    refine ⟨rfl, fun f hf => ?_⟩
    rcases List.mem_append.mp hf with hold | hmem
    · exact hemitted f hold
    · obtain ⟨i, -, hi⟩ := hnew f hmem
      exact hi.emitted
  · intro hint m f hf
    obtain ⟨new, hout, hnew, -⟩ := step_issued h m
    rw [hout, List.drop_left] at hf
    obtain ⟨i, hinternal, hi⟩ := hnew f hf
    exact hi.pulsesInRange (hinternal hint)

end Sys2Proof.Machine
end

section
/-! Consecutive samples inside both deadzones, each published and followed by its tick (44_tracking.md R155, R156, R162). -/

namespace Sys2Proof.Machine

open Sys2Proof.Statements

variable {s t u : State} {smp : Sample} {rest : List Offer} {n : Nat}

/-! ### One sample and its tick -/

/-- The two offers are the words of MB_PUBLISH, by ING, and of SM_TICK, by CTL (R82). -/
theorem publishThenTick_eq (smp : Sample) :
    publishThenTick smp = [⟨.ing, encode (.mbPublish smp.x smp.y smp.valid)⟩, ⟨.ctl, encode .smTick⟩] := by
  obtain ⟨x, y, _ | _⟩ := smp <;> rfl

theorem offers_concat (smps : List Sample) (smp : Sample) (rest : List Offer) :
    (smps ++ [smp]).flatMap publishThenTick ++ rest = smps.flatMap publishThenTick ++ (publishThenTick smp ++ rest) := by
  rw [List.flatMap_append, List.flatMap_singleton, List.append_assoc]

/-- The step of an offer that the encoder spells. -/
theorem step_of_encoded {i : Instr} {a : Agent} (hi : s.inbox = ⟨a, encode i⟩ :: rest) (hwf : i.wf = true) :
    step s = exec i (s.takeOffer ⟨a, encode i⟩ rest) :=
  step_of_decoded hi (decodeOfEncodeIsTheOperation i hwf)

/-- The state after ING's MB_PUBLISH of a sample, the rest of the offers left to perform (R120). -/
def afterPublish (s : State) (smp : Sample) (rest : List Offer) : State :=
  { publish smp s with actor := .ing, inbox := rest, result := .nothing }

/-- The state in which CTL performs the tick that follows a published sample. -/
def publishedTick (s : State) (smp : Sample) (rest : List Offer) : State :=
  { afterPublish s smp rest with actor := .ctl }

theorem step_of_publish (hi : s.inbox = ⟨.ing, encode (.mbPublish smp.x smp.y smp.valid)⟩ :: rest) :
    step s = .next (afterPublish s smp rest) :=
  (step_of_encoded hi rfl).trans (exec_mbPublish rfl)

theorem step_of_tick_after_publish :
    step (afterPublish s smp (⟨.ctl, encode .smTick⟩ :: rest)) = exec .smTick (publishedTick s smp rest) :=
  step_of_encoded rfl rfl

/-- The two steps of a published sample and its tick. -/
theorem run_publishThenTick (hi : s.inbox = publishThenTick smp ++ rest)
    (ht : exec .smTick (publishedTick s smp rest) = .next t) : Host.Core.run core 2 s = .next t := by
  rw [publishThenTick_eq] at hi
  rw [run_succ_of_step (M := core) (step_of_publish hi)]
  exact run_succ_of_step (M := core) (k := 0) (step_of_tick_after_publish.trans ht)

theorem run_add_of_run {M : Host.Core} {u v : M.State} {j k : Nat} (h : M.run j u = .next v) : M.run (j + k) u = M.run k v := by
  induction j generalizing u with
  | zero => cases h; rw [Nat.zero_add]
  | succ j ih =>
    rw [Nat.add_right_comm, Host.Core.run]
    rw [Host.Core.run] at h
    split at h
    · exact ih h
    · cases h
    · cases h

/-! ### A run of samples -/

/-- `t` is `s` after n samples inside both deadzones and their ticks, each counted and none locking: the dwell count, the mode of the
last tick and a record for each, no frame issued, nothing refused, the deadzones kept. -/
structure Dwelt (s : State) (n : Nat) (rest : List Offer) (t : State) : Prop where
  en : t.sm.en = true
  dwell : t.sm.dwell = BitVec.ofNat 8 n
  tracking : 0 < n → t.sm.mode = .tracking ∧ t.sm.loss = 0#32
  out1 : t.out1 = s.out1
  out2 : t.out2 = s.out2
  modes : t.fb.map (·.record.mode) = s.fb.map (·.record.mode) ++ List.replicate n .tracking
  refused : t.refused = s.refused
  inbox : t.inbox = rest
  dzH : t.pidH.dz = s.pidH.dz
  dzV : t.pidV.dz = s.pidV.dz

theorem Dwelt.sm (h : Dwelt s n rest t) (hn : 0 < n) :
    t.sm = { en := true, mode := .tracking, dwell := BitVec.ofNat 8 n, loss := 0#32 } := by
  obtain ⟨hmode, hloss⟩ := h.tracking hn
  rw [← h.en, ← hmode, ← h.dwell, ← hloss]

/-- The tick after one more sample inside both deadzones is a valid tick inside them. -/
theorem Dwelt.validTick (h : Dwelt s n (publishThenTick smp ++ rest) t) (hsmp : InsideSample s smp) :
    ValidTick (publishedTick t smp rest) ∧ Inside (publishedTick t smp rest) := by
  obtain ⟨hvalid, hx, hy⟩ := hsmp
  rw [← h.dzH] at hx
  rw [← h.dzV] at hy
  exact ⟨⟨rfl, h.en, rfl, hvalid⟩, hx, hy⟩

theorem Dwelt.toNat_dwell (h : Dwelt s n rest t) (hn : n < 10) : t.sm.dwell.toNat = n := by
  rw [h.dwell, BitVec.toNat_ofNat]
  omega

/-- One more sample whose tick does not lock (R155). -/
theorem Dwelt.succ (h : Dwelt s n (publishThenTick smp ++ rest) t) (hsmp : InsideSample s smp) (hn : n + 1 < 10) :
    ∃ u, Host.Core.run core 2 t = .next u ∧ Dwelt s (n + 1) rest u := by
  obtain ⟨hvalid, hin⟩ := h.validTick hsmp
  have hcount : t.sm.dwell.toNat + 1 < 10 := by rw [h.toNat_dwell (by omega)]; exact hn
  refine ⟨_, run_publishThenTick h.inbox (insideTickCountsDwell _ hvalid hin hcount), ?_⟩
  have hdwell : t.sm.dwell + 1 = BitVec.ofNat 8 (n + 1) := by rw [h.dwell, BitVec.ofNat_add]; rfl
  have hmodes : (t.fb ++ [entryOf (publishedTick t smp rest) 0#32 0#32 .tracking]).map (·.record.mode) =
      s.fb.map (·.record.mode) ++ List.replicate (n + 1) .tracking := by
    rw [List.map_append, h.modes, List.append_assoc, List.replicate_succ']
    rfl
  exact ⟨rfl, hdwell, fun _ => ⟨rfl, rfl⟩, h.out1, h.out2, hmodes, h.refused, rfl, h.dzH, h.dzV⟩

/-- The tenth sample, whose tick locks (R156). -/
theorem Dwelt.locks (h : Dwelt s 9 (publishThenTick smp ++ rest) t) (hsmp : InsideSample s smp) :
    ∃ u, Host.Core.run core 2 t = .next u ∧ u.sm = { en := true, mode := .locked, dwell := 0#8, loss := 0#32 } ∧
      u.out1 = s.out1 ++ [stopBytes .vertical] ∧ u.out2 = s.out2 ++ [stopBytes .horizontal] ∧
      (u.fb.drop s.fb.length).map (·.record.mode) = List.replicate 10 .tracking ++ [.locked] ∧
      u.refused = s.refused ∧ u.inbox = rest := by
  obtain ⟨hvalid, hin⟩ := h.validTick hsmp
  have hcount : t.sm.dwell.toNat = 9 := h.toNat_dwell (by decide)
  have hlock := tenthInsideTickLocks _ hvalid hin hcount.ge (hcount.trans_lt (by decide))
  have hmodes : (publishedTick t smp rest).fb.map (·.record.mode) = _ := h.modes
  refine ⟨_, run_publishThenTick h.inbox hlock, rfl, congrArg (· ++ _) h.out1, congrArg (· ++ _) h.out2, ?_, h.refused, rfl⟩
  rw [List.map_drop, List.map_append, hmodes, List.append_assoc, List.drop_left' (List.length_map _)]
  rfl

/-- Fewer than 10 samples inside both deadzones, each followed by its tick, are all counted (R155, R162). -/
theorem run_inside {smps : List Sample} (hen : s.sm.en = true) (hdwell : s.sm.dwell = 0)
    (hsmps : ∀ smp ∈ smps, InsideSample s smp) (hlen : smps.length < 10)
    (hinbox : s.inbox = smps.flatMap publishThenTick ++ rest) :
    ∃ t, Host.Core.run core (2 * smps.length) s = .next t ∧ Dwelt s smps.length rest t := by
  induction smps using List.reverseRecOn generalizing rest with
  | nil => exact ⟨s, rfl, hen, hdwell, nofun, rfl, rfl, by simp, rfl, hinbox, rfl, rfl⟩
  | append_singleton smps smp ih =>
    rw [List.length_append, List.length_singleton] at hlen ⊢
    rw [offers_concat] at hinbox
    obtain ⟨t, hrun, ht⟩ := ih (fun p hp => hsmps p (List.mem_append_left _ hp)) (by omega) hinbox
    obtain ⟨u, hrun', hu⟩ := ht.succ (hsmps smp (by simp)) hlen
    exact ⟨u, (run_add_of_run (M := core) (k := 2) hrun).trans hrun', hu⟩

/-- Settles O39: up to nine samples are counted, and the tick of the tenth locks. -/
theorem tenInsideTicksLockOnce : Obligations.TenInsideTicksLockOnce := by
  intro s smps rest hen hdwell hsmps hinbox
  constructor
  · intro hpos hlen
    obtain ⟨t, hrun, ht⟩ := run_inside hen hdwell hsmps hlen hinbox
    exact ⟨t, hrun, ht.sm hpos, ht.out1, ht.out2, ht.refused, ht.inbox⟩
  · intro hlen
    obtain ⟨init, last, rfl⟩ : ∃ init last, smps = init ++ [last] :=
      (List.eq_nil_or_concat' smps).resolve_left (by rintro rfl; cases hlen)
    have hnine : init.length = 9 := by simpa using hlen
    rw [offers_concat] at hinbox
    obtain ⟨t, hrun, ht⟩ := run_inside hen hdwell (fun p hp => hsmps p (List.mem_append_left _ hp)) (by omega) hinbox
    rw [hnine] at hrun ht
    obtain ⟨u, hrun', hu⟩ := ht.locks (hsmps last (by simp))
    exact ⟨u, (run_add_of_run (M := core) (k := 2) hrun).trans hrun', hu⟩

end Sys2Proof.Machine
end

section
/-! MotionEncoder: R185's rounding, the pulse count at the default NUM, and ENC_MOVE by its outcome (45_motion_encoder.md R180 to
R185, R190). -/

namespace Sys2Proof.Machine

open Sys2Proof.Statements

variable {n : NumConfig} {d : Rotation} {m : Motor} {angle : F32} {speed : Word16} {accel : Byte} {s : State}

/-! ### Rounding half away from zero (R185) -/

theorem roundHalfAway_eq_signed (q : F32) : roundHalfAway q = signed (fsign q) ((2 * funits q + 2 ^ 149) / 2 ^ 150) := rfl

/-- The sign is common to both, so the distance is the one of the magnitudes. -/
theorem dist_roundHalfAway (q : F32) :
    |fvalue q - roundHalfAway q * 2 ^ 149| =
      ((((2 * funits q + 2 ^ 149) / 2 ^ 150 * 2 ^ 149 : Nat) - funits q : Int).natAbs : Int) := by
  have hpow : (2 : Int) ^ 149 = ((2 ^ 149 : Nat) : Int) := by norm_cast
  rw [abs_sub_comm, roundHalfAway_eq_signed, fvalue_eq_signed, hpow]
  exact dist_same_sign (fsign q) _ _ _

/-- Settles O29: by the distance of the magnitudes, where the floor of |q| + 1/2 lies above |q| at a tie. -/
theorem roundHalfAwayIsNearestTiesAway : Obligations.RoundHalfAwayIsNearestTiesAway := by
  intro q _
  rw [dist_roundHalfAway, abs_fvalue, roundHalfAway_eq_signed, abs_signed]
  generalize funits q = u
  constructor <;> omega

/-! ### The pulse count at the default NUM (R182) -/

/-- Rounding stays at or above a pattern whose value the exact result reaches. -/
theorem le_roundMag {p x y : Nat} (hy : 0 < y) (hp : p ≤ infMag) (h : unitsOf p * y ≤ x) : p ≤ roundMag x y :=
  calc p = roundMag (unitsOf p * y) y := (roundMag_exact hy hp).symm
    _ ≤ roundMag x y := roundMag_mono hy hy (Nat.mul_le_mul_right y h)

theorem ieeeDiv_inf_finite {a b : F32} (ha : isInf a = true) (hb : isFinite b = true) :
    ieeeDiv a b = fpack (fsign a != fsign b) infMag := by
  have hnan : isNaN a = false := by simp [isInf, isNaN] at *; omega
  simp [ieeeDiv, hnan, ha, isNaN_of_isFinite hb, isInf_of_isFinite hb]

/-- An angle that is not below the threshold is at least 0.1 in magnitude (R181). -/
theorem funits_of_ge (hfin : isFinite angle = true) (h : belowStopThreshold angle = false) : unitsOf 0x3DCCCCCD ≤ funits angle := by
  have hge : ¬ flt (fabs angle) Config.stopThreshold = true := ne_true_of_eq_false h
  rw [flt_iff_fvalue ((isNaN_fabs _).trans (isNaN_of_isFinite hfin)) (by decide), fvalue_fabs, abs_fvalue, not_lt] at hge
  exact Int.ofNat_le.mp hge

/-- From the threshold on, the product with 3200.0 is at least 180.0 in magnitude and has the angle's sign. -/
theorem fmul_pulsesPerRev_of_ge (hfin : isFinite angle = true) (h : belowStopThreshold angle = false) :
    ∃ mag, 0x43340000 ≤ mag ∧ mag ≤ infMag ∧ fmul .standard angle Config.pulsesPerRev = fpack (fsign angle) mag := by
  have hprod : unitsOf 0x43340000 * 2 ^ 149 ≤ funits angle * funits Config.pulsesPerRev :=
    calc unitsOf 0x43340000 * 2 ^ 149 ≤ unitsOf 0x3DCCCCCD * funits Config.pulsesPerRev := by decide +kernel
      _ ≤ funits angle * funits Config.pulsesPerRev := Nat.mul_le_mul_right _ (funits_of_ge hfin h)
  refine ⟨roundMag (funits angle * funits Config.pulsesPerRev) (2 ^ 149), le_roundMag (Nat.two_pow_pos _) (by decide) hprod,
    roundMag_le_infMag _ _, ?_⟩
  rw [fmul_standard, ieeeMul_finite hfin (by decide), show fsign Config.pulsesPerRev = false by decide, Bool.bne_false]

/-- A magnitude of at least 180.0 divided by 360.0 is at least 0.5, an infinity included, and the sign is kept. -/
theorem fdiv_degPerRev_of_ge {neg : Bool} {mag : Nat} (hlow : 0x43340000 ≤ mag) (hhigh : mag ≤ infMag) :
    ∃ mag', 0x3F000000 ≤ mag' ∧ mag' ≤ infMag ∧ fdiv .standard (fpack neg mag) Config.degPerRev = fpack neg mag' := by
  have hlt : mag < 2 ^ 31 := hhigh.trans_lt (by decide)
  have hsign : (fsign (fpack neg mag) != fsign Config.degPerRev) = neg := by
    rw [fsign_fpack hlt, show fsign Config.degPerRev = false by decide, Bool.bne_false]
  rw [fdiv_standard]
  rcases hhigh.lt_or_eq with hfin | hinf
  · have hquot : unitsOf 0x3F000000 * funits Config.degPerRev ≤ unitsOf mag * 2 ^ 149 :=
      calc unitsOf 0x3F000000 * funits Config.degPerRev ≤ unitsOf 0x43340000 * 2 ^ 149 := by decide +kernel
        _ ≤ unitsOf mag * 2 ^ 149 := Nat.mul_le_mul_right _ (unitsOf_strictMono.monotone hlow)
    refine ⟨roundMag (unitsOf mag * 2 ^ 149) (funits Config.degPerRev), le_roundMag (by decide +kernel) (by decide) hquot,
      roundMag_le_infMag _ _, ?_⟩
    rw [ieeeDiv_finite ((isFinite_fpack hlt).mpr hfin) (by decide) (by decide), hsign, funits_eq (fpack neg mag), fmag_fpack hlt]
  · have hisInf : isInf (fpack neg mag) = true := decide_eq_true ((fmag_fpack hlt).trans hinf)
    exact ⟨infMag, by decide, le_rfl, by rw [ieeeDiv_inf_finite hisInf (by decide), hsign]⟩

/-- A magnitude of at least 0.5 rounds half away to a positive one under its sign. -/
theorem roundHalfAway_of_ge {neg : Bool} {mag : Nat} (hlow : 0x3F000000 ≤ mag) (hhigh : mag ≤ infMag) :
    ∃ k, 0 < k ∧ roundHalfAway (fpack neg mag) = signed neg k := by
  have hlt : mag < 2 ^ 31 := hhigh.trans_lt (by decide)
  refine ⟨(2 * unitsOf mag + 2 ^ 149) / 2 ^ 150, ?_, ?_⟩
  · have hhalf : unitsOf 0x3F000000 = 2 ^ 148 := by decide +kernel
    have hmono := unitsOf_strictMono.monotone hlow
    omega
  · rw [roundHalfAway_eq_signed, fsign_fpack hlt, funits_eq, fmag_fpack hlt]

/-- From the threshold on, the pulse count is a positive magnitude under the angle's sign. -/
theorem pulseCount_of_ge (hfin : isFinite angle = true) (h : belowStopThreshold angle = false) :
    ∃ k, 0 < k ∧ pulseCount .standard angle = signed (fsign angle) k := by
  obtain ⟨prod, hlow, hhigh, hmul⟩ := fmul_pulsesPerRev_of_ge hfin h
  obtain ⟨quot, hlow', hhigh', hdiv⟩ := fdiv_degPerRev_of_ge (neg := fsign angle) hlow hhigh
  obtain ⟨k, hk, hround⟩ := roundHalfAway_of_ge (neg := fsign angle) hlow' hhigh'
  refine ⟨k, hk, ?_⟩
  calc pulseCount .standard angle
      = roundHalfAway (fdiv .standard (fmul .standard angle Config.pulsesPerRev) Config.degPerRev) := rfl
    _ = signed (fsign angle) k := by rw [hmul, hdiv, hround]

theorem signed_pos_iff {neg : Bool} {k : Nat} (hk : 0 < k) : 0 < signed neg k ↔ neg = false := by
  cases neg <;> simp [signed, hk]

/-- Settles O32: the count and the angle are positive magnitudes under one sign. -/
theorem moveNeverCarriesZeroPulses : Obligations.MoveNeverCarriesZeroPulses := by
  intro angle hfin h
  obtain ⟨k, hk, hcount⟩ := pulseCount_of_ge hfin h
  have hangle : 0 < funits angle := lt_of_lt_of_le (by decide +kernel) (funits_of_ge hfin h)
  rw [hcount, fvalue_eq_signed, signed_pos_iff hk, signed_pos_iff hangle]
  exact ⟨signed_ne_zero_iff.mpr hk.ne', Iff.rfl⟩

/-! ### ENC_MOVE by its outcome (R180, R190) -/

theorem encMove_of_not_finite (h : isFinite angle = false) : encMove n d m angle speed accel = .error .badAngle := by
  simp [encMove, h]

theorem encMove_of_below (hfin : isFinite angle = true) (h : belowStopThreshold angle = true) :
    encMove n d m angle speed accel = .ok (stopBytes m) := by
  simp [encMove, hfin, h, stopFrame_eq_stopBytes]

theorem encMove_of_out_of_range (hfin : isFinite angle = true) (h : belowStopThreshold angle = false)
    (hp : 2 ^ 31 - 1 < (pulseCount n angle).natAbs) : encMove n d m angle speed accel = .error .pulseRange := by
  have hp' : Config.pulseMax < (pulsesOf n angle).natAbs := hp
  simp [encMove, hfin, h, hp']

theorem dirByte_rotationOf (d : Rotation) (p : Int) :
    dirByte (rotationOf d p) = if 0 < p then dirByte d else dirByte d ^^^ 0x01#8 := by
  unfold rotationOf
  split <;> cases d <;> rfl

theorem encMove_of_in_range (hfin : isFinite angle = true) (h : belowStopThreshold angle = false)
    (hp : (pulseCount n angle).natAbs ≤ 2 ^ 31 - 1) :
    encMove n d m angle speed accel = .ok (moveBytes m
      (if 0 < pulseCount n angle then dirByte d else dirByte d ^^^ 0x01#8) speed accel (pulseCount n angle).natAbs) := by
  have hp' : ¬ Config.pulseMax < (pulsesOf n angle).natAbs := not_lt.mpr hp
  have hword : (BitVec.ofNat 32 (pulseCount n angle).natAbs).toNat = (pulseCount n angle).natAbs :=
    Nat.mod_eq_of_lt (by omega)
  calc encMove n d m angle speed accel
      = .ok (moveFrame m (rotationOf d (pulseCount n angle)) speed accel (BitVec.ofNat 32 (pulseCount n angle).natAbs)) := by
        rw [encMove, hfin, h, if_neg hp']; rfl
    _ = _ := by rw [moveFrame_eq_moveBytes, dirByte_rotationOf, hword]

theorem exec_encMove_of_ok {f : Frame} (hs : s.actor = .ctl) (h : encMove s.num s.dirPos m angle speed accel = .ok f) :
    exec (.encMove m angle speed accel) s = .next { s with result := .frame f } := by
  refine (runAs_performed hs).trans ?_
  rw [answerMove, h]
  rfl

theorem exec_encMove_of_error {r : RefuseReason} (hs : s.actor = .ctl)
    (h : encMove s.num s.dirPos m angle speed accel = .error r) :
    exec (.encMove m angle speed accel) s = .next (refusedState s r) := by
  refine (runAs_performed hs).trans ?_
  rw [answerMove, h]
  rfl

/-- Settles O30: an ENC_MOVE performed by CTL answers the frame of `encMove` or is refused with its reason. -/
theorem encMoveAnswersItsFrame : Obligations.EncMoveAnswersItsFrame := fun _ _ _ _ _ hs =>
  ⟨fun hfin => exec_encMove_of_error hs (encMove_of_not_finite hfin),
    fun hfin hlow => exec_encMove_of_ok hs (encMove_of_below hfin hlow),
    fun hfin hge hp => exec_encMove_of_error hs (encMove_of_out_of_range hfin hge hp),
    fun hfin hge hp => exec_encMove_of_ok hs (encMove_of_in_range hfin hge hp)⟩

end Sys2Proof.Machine
end

section
/-! What a motor receives of the frames issued to it (45_motion_encoder.md R189). -/

namespace Sys2Proof.Machine

/-- Frame by frame: whatever is drawn, the bytes taken of a frame lead it. -/
theorem deliveredFrom_leading (m : Motor) (k : Nat) (fs : List Frame) :
    List.Forall₂ (fun (d : List Byte) (f : Frame) => d <+: f) (deliveredFrom m k fs) fs := by
  induction fs generalizing k with
  | nil => exact .nil
  | cons f fs ih => exact .cons (List.take_prefix _ f) (ih (k + 1))

/-- Settles O48: the delivered lists are those of the whole issued stream. -/
theorem deliveryIsALeadingPartOfEachFrame : Obligations.DeliveryIsALeadingPartOfEachFrame :=
  fun s m => deliveredFrom_leading m 0 (s.out m)

end Sys2Proof.Machine
end

section
/-! The collaborator surface as CTL performs it (46_host_surface.md R200 to R203). -/

namespace Sys2Proof.Machine

open Sys2Proof.Statements

variable {m : Motor} {angle : F32} {speed : Word16} {accel : Byte} {s : State}

/-- Settles O42: the operation as CTL performs it; its Stops are the bytes of R75. -/
theorem stopAllStopsBoth : Obligations.StopAllStopsBoth := by
  intro s hs
  rw [← stopBoth_done_eq_withBothStopped]
  exact runAs_performed hs

/-- Settles O44: performed by CTL it is a Send of the EN frame. -/
theorem motorEnableSendsItsFrame : Obligations.MotorEnableSendsItsFrame := by
  intro m en s hs
  rw [← enableFrame_eq_enableBytes, ← send_done_eq_withSent]
  exact runAs_performed hs

/-- Settles O45: for each flag, the operation as CTL performs it writes that flag. -/
theorem setFlagWritesTheFlag : Obligations.SetFlagWritesTheFlag :=
  fun _ _ hs => ⟨runAs_performed hs, runAs_performed hs⟩

theorem exec_hostMove_of_ok {f : Frame} (hs : s.actor = .ctl) (h : encMove s.num s.dirPos m angle speed accel = .ok f) :
    exec (.hostMove m angle speed accel) s = .next (withSent s m f) := by
  refine (runAs_performed hs).trans ?_
  rw [directMove, h, ← send_done_eq_withSent]
  rfl

theorem exec_hostMove_of_error {r : RefuseReason} (hs : s.actor = .ctl)
    (h : encMove s.num s.dirPos m angle speed accel = .error r) :
    exec (.hostMove m angle speed accel) s = .next (refusedState s r) := by
  refine (runAs_performed hs).trans ?_
  rw [directMove, h]
  rfl

/-- Settles O43: a HOST_MOVE performed by CTL sends the frame of `encMove` or is refused with its reason. -/
theorem hostMoveSendsTheEncodedFrame : Obligations.HostMoveSendsTheEncodedFrame := fun _ _ _ _ _ hs =>
  ⟨fun hfin => exec_hostMove_of_error hs (encMove_of_not_finite hfin),
    fun hfin hlow => exec_hostMove_of_ok hs (encMove_of_below hfin hlow),
    fun hfin hge hp => exec_hostMove_of_error hs (encMove_of_out_of_range hfin hge hp),
    fun hfin hge hp => exec_hostMove_of_ok hs (encMove_of_in_range hfin hge hp)⟩

end Sys2Proof.Machine
end

section
/-! Telemetry: which records may be sent as a line, what TLM_DATA does, and the downlink as a gated and spaced subsequence of the
feedback stream (46_host_surface.md R204, R205). -/

namespace Sys2Proof.Machine

open Sys2Proof.Statements

variable {i : Instr} {s t : State} {sent : List FeedbackEntry} {e : FeedbackEntry}

/-! ### The texts of a line (R80) -/

theorem isFieldText_intText (f : TlmInt) (n : Int) : isFieldText (Config.intText f n) = true := by
  unfold Config.intText
  split
  · assumption
  · decide

theorem isFieldText_realText (f : TlmReal) (x : F32) : isFieldText (Config.realText f x) = true := by
  unfold Config.realText
  split
  · assumption
  · decide

theorem recordText_wf (r : FeedbackRecord) : (recordText r).wf = true :=
  (recordText r).wf_iff.mpr ⟨isFieldText_intText _ _, isFieldText_intText _ _, isFieldText_intText _ _, isFieldText_intText _ _,
    isFieldText_realText _ _, isFieldText_realText _ _⟩

/-! ### The gate and the spacing (R205) -/

theorem telemetrySpaced_iff : telemetrySpaced sent e = true ↔ ∀ l, sent.getLast? = some l → l.tick + 10 ≤ e.tick := by
  unfold telemetrySpaced
  cases sent.getLast? with
  | none => exact ⟨fun _ _ => nofun, fun _ => rfl⟩
  | some l => exact ⟨fun h _ hl => Option.some.inj hl ▸ of_decide_eq_true h, fun h => decide_eq_true (h l rfl)⟩

theorem telemetryEligible_iff {x : TelemetryText} {m : TrackingMode} :
    telemetryEligible sent x m e = true ↔ e.feedbackEn = true ∧ textsOf e.record = x ∧ e.record.mode = m ∧
      ∀ l, sent.getLast? = some l → l.tick + 10 ≤ e.tick := by
  simp only [telemetryEligible, Bool.and_eq_true, decide_eq_true_eq, telemetrySpaced_iff]
  constructor
  · rintro ⟨⟨⟨hgate, hspaced⟩, htext⟩, hmode⟩
    exact ⟨hgate, htext, hmode, hspaced⟩
  · rintro ⟨hgate, htext, hmode, hspaced⟩
    exact ⟨⟨⟨hgate, hspaced⟩, htext⟩, hmode⟩

/-! ### TLM_DATA -/

theorem exec_tlmData_of_ctl (x : TelemetryText) (m : TrackingMode) (hs : s.actor = .ctl) :
    exec (.tlmData x m) s = .next (sendTelemetry x m s).done := runAs_performed hs

theorem downlink_pushTlm_done (s : State) (e : FeedbackEntry) :
    downlink (s.pushTlm e).done = downlink s ++ [lineBytes (textsOf e.record) e.record.mode] := by
  rw [← telemetryLine_eq_lineBytes]
  exact List.map_append

/-- Settles O47: TLM_DATA sends an eligible record where one stands in FB, and keeps the state where none does. -/
theorem telemetryLinesAreGatedRecords : Obligations.TelemetryLinesAreGatedRecords := by
  refine ⟨fun r => wf_iff_fieldTexts.mp (recordText_wf r), fun x m s hs => ?_⟩
  rw [exec_tlmData_of_ctl x m hs]
  rcases sendTelemetry_cases x m s with ⟨hnone, hsend⟩ | ⟨e', he', helig, hsend⟩ <;> rw [hsend]
  · refine ⟨fun e he hgate htext hmode hspaced => ?_, fun _ => rfl⟩
    have helig := telemetryEligible_iff.mpr ⟨hgate, htext, hmode, hspaced⟩
    exact absurd helig (Bool.eq_false_iff.mp (hnone e he))
  · obtain ⟨hgate, htext, hmode, hspaced⟩ := telemetryEligible_iff.mp helig
    refine ⟨fun _ _ _ _ _ _ => ⟨e', he', hgate, htext, hmode, hspaced, rfl, ?_⟩, fun hheld => ?_⟩
    · rw [← htext, ← hmode]
      exact downlink_pushTlm_done s e'
    · obtain ⟨l, hl, hlt⟩ := hheld e' he' hgate htext hmode
      exact absurd (hspaced l hl) (Nat.not_le_of_lt hlt)

/-! ### The downlink as a subsequence of FB -/

/-- What an operation does to FB, the tick count and the telemetry lines: nothing, one tick with its entries, or one line (R204,
R205). -/
theorem Effect.telemetry_cases (h : Effect i s t) :
    (t.fb = s.fb ∧ t.tickIndex = s.tickIndex ∧ t.tlm = s.tlm) ∨
    (∃ new, (∀ e ∈ new, e.tick = s.tickIndex + 1) ∧ t.fb = s.fb ++ new ∧ t.tickIndex = s.tickIndex + 1 ∧ t.tlm = s.tlm) ∨
    ∃ e ∈ s.fb, e.feedbackEn = true ∧ telemetrySpaced s.tlm e = true ∧
      t.fb = s.fb ∧ t.tickIndex = s.tickIndex ∧ t.tlm = s.tlm ++ [e] := by
  cases h with
  | byte b _ =>
    obtain ⟨-, -, -, -, -, -, -, hfb, -, htlm, htick, -⟩ := consumeByte_frame b s
    exact .inl ⟨hfb, htick, htlm⟩
  | ticked u _ hu =>
    obtain ⟨-, new, -, hfb, hnew, -⟩ := tick_outputs i hu
    obtain ⟨-, -, htlm, htick, -⟩ := tick_frame hu
    refine .inr (.inl ⟨new, fun e he => ?_, hfb, htick, htlm⟩)
    obtain ⟨-, hentry, -⟩ := hnew e he
    exact hentry
  | tickRefused r _ _ => exact .inr (.inl ⟨[], nofun, (List.append_nil _).symm, rfl, rfl⟩)
  | line e he hgate hspaced => exact .inr (.inr ⟨e, he, hgate, hspaced, rfl, rfl, rfl⟩)
  | disabled _ => exact .inl ⟨rfl, rfl, rfl⟩
  | stopped _ => exact .inl ⟨rfl, rfl, rfl⟩
  | _ => exact .inl (by simp)

theorem TelemetryInv.of_eq (hs : TelemetryInv s) (hfb : t.fb = s.fb) (htick : t.tickIndex = s.tickIndex) (htlm : t.tlm = s.tlm) :
    TelemetryInv t := by
  rwa [TelemetryInv, hfb, htick, htlm]

/-- The entries of a new tick come after all earlier ones, and the lines stay a subsequence of the longer stream. -/
theorem TelemetryInv.of_new_tick {new : List FeedbackEntry} (hs : TelemetryInv s) (hnew : ∀ e ∈ new, e.tick = s.tickIndex + 1)
    (hfb : t.fb = s.fb ++ new) (htick : t.tickIndex = s.tickIndex + 1) (htlm : t.tlm = s.tlm) : TelemetryInv t := by
  obtain ⟨hsorted, hpast, hsub, hapart⟩ := hs
  rw [TelemetryInv, hfb, htick, htlm]
  refine ⟨List.pairwise_append.mpr ⟨hsorted, ?_, fun a ha b hb => ?_⟩, fun e he => ?_, ?_, hapart⟩
  · exact List.pairwise_of_forall_mem_list fun a ha b hb => ((hnew a ha).trans (hnew b hb).symm).le
  · exact (hpast a ha).trans ((Nat.le_succ _).trans (hnew b hb).ge)
  · rcases List.mem_append.mp he with hold | hmem
    · exact (hpast e hold).trans (Nat.le_succ _)
    · exact (hnew e hmem).le
  · rw [List.filter_append]
    exact hsub.trans (List.sublist_append_left _ _)

/-- In lines that are spaced among themselves the latest has the largest tick, so spacing from it is spacing from all. -/
theorem spaced_from_all (hsent : sent.Pairwise fun a b => a.tick + 10 ≤ b.tick) (he : telemetrySpaced sent e = true) :
    ∀ a ∈ sent, a.tick + 10 ≤ e.tick := by
  rw [telemetrySpaced_iff] at he
  rcases List.eq_nil_or_concat' sent with rfl | ⟨init, l, rfl⟩
  · exact nofun
  · have hl : l.tick + 10 ≤ e.tick := he l List.getLast?_concat
    obtain ⟨-, -, hinit⟩ := List.pairwise_append.mp hsent
    intro a ha
    rcases List.mem_append.mp ha with ha | ha
    · exact (hinit a ha l (List.mem_singleton_self l)).trans ((Nat.le_add_right _ _).trans hl)
    · rwa [List.mem_singleton.mp ha]

/-- In a stream in order of ticks, a subsequence of entries earlier than `e` lies before `e`, and `e` may follow it. -/
theorem sublist_concat_of_earlier {stream : List FeedbackEntry} (hsorted : stream.Pairwise fun a b => a.tick ≤ b.tick)
    (hsub : sent.Sublist stream) (he : e ∈ stream) (hearlier : ∀ a ∈ sent, a.tick < e.tick) : (sent ++ [e]).Sublist stream := by
  obtain ⟨before, after, rfl⟩ := List.append_of_mem he
  obtain ⟨-, hfrom, -⟩ := List.pairwise_append.mp hsorted
  have hlate : ∀ a ∈ e :: after, e.tick ≤ a.tick := List.forall_mem_cons.mpr ⟨le_refl _, fun _ => List.rel_of_pairwise_cons hfrom⟩
  obtain ⟨first, second, rfl, hfirst, hsecond⟩ := List.sublist_append_iff.mp hsub
  have hnil : second = [] := List.eq_nil_iff_forall_not_mem.mpr fun a ha =>
    (hlate a (hsecond.subset ha)).not_gt (hearlier a (List.mem_append_right _ ha))
  rw [hnil, List.append_nil]
  exact hfirst.append (List.singleton_sublist.mpr List.mem_cons_self)

/-- A gated and spaced record may join the lines. -/
theorem TelemetryInv.of_line (hs : TelemetryInv s) (he : e ∈ s.fb) (hgate : e.feedbackEn = true)
    (hspaced : telemetrySpaced s.tlm e = true) (hfb : t.fb = s.fb) (htick : t.tickIndex = s.tickIndex)
    (htlm : t.tlm = s.tlm ++ [e]) : TelemetryInv t := by
  obtain ⟨hsorted, hpast, hsub, hapart⟩ := hs
  have hall : ∀ a ∈ s.tlm, a.tick + 10 ≤ e.tick := spaced_from_all hapart hspaced
  rw [TelemetryInv, hfb, htick, htlm]
  refine ⟨hsorted, hpast, ?_, List.pairwise_append.mpr ⟨hapart, List.pairwise_singleton _ _, ?_⟩⟩
  · exact sublist_concat_of_earlier (hsorted.filter _) hsub (List.mem_filter.mpr ⟨he, hgate⟩)
      fun a ha => (Nat.lt_add_of_pos_right (by decide)).trans_le (hall a ha)
  · simpa using hall

theorem Effect.telemetryInv (h : Effect i s t) (hs : TelemetryInv s) : TelemetryInv t := by
  rcases h.telemetry_cases with ⟨hfb, htick, htlm⟩ | ⟨new, hnew, hfb, htick, htlm⟩ | ⟨e, he, hgate, hspaced, hfb, htick, htlm⟩
  · exact hs.of_eq hfb htick htlm
  · exact hs.of_new_tick hnew hfb htick htlm
  · exact hs.of_line he hgate hspaced hfb htick htlm

/-- Settles O56: a step leaves the streams alone, adds the entries of a new tick, or adds one gated and spaced line. -/
theorem stepKeepsTelemetryInvariant : Obligations.StepKeepsTelemetryInvariant :=
  fun _ _ => step_keeps (fun _ _ _ => id) Effect.telemetryInv

end Sys2Proof.Machine
end
